-- ==== Sys2Proof/Word.lean ====
section
/-! DEFINITION. The widths of the codec (00_scope.md R11, R12): every value is an unsigned bit vector, bit 0 the least
significant. `a ++ b` on bit vectors puts `a` in the more significant bits, as the spec's `++` does (R13). -/

namespace Sys2Proof

/-- A byte of a frame, and the CRC (`CRC_W` = 8). -/
abbrev Byte := BitVec 8

/-- A 4-bit opcode (30_encoding.md R56). -/
abbrev Opcode := BitVec 4

/-- A 7-bit register address of the remote chip (`ADDR_W` = 7), and the expected address EA. -/
abbrev Address := BitVec 7

/-- A 16-bit transport word, half a frame (`WORD_W` = 16), and a data value (`DATA_W` = 16). -/
abbrev Half := BitVec 16

/-- The 24-bit message the CRC covers: frame bytes 0 to 2 (`MSG_W` = 24). -/
abbrev Message := BitVec 24

/-- A 32-bit SPI frame (`FRAME_W` = 32). -/
abbrev Frame := BitVec 32

/-- A 48-bit command word (30_encoding.md R55). -/
abbrev Command := BitVec 48

end Sys2Proof
end

