-- ==== Sys2Proof/Syntax.lean ====
section
/-! DEFINITION. What the host can say to the codec: the four commands of the opcode table, the three transactions, and the
lines of the assembler language. -/

namespace Sys2Proof

/-- The commands of spec/opcode_table.json, one constructor per row (30_encoding.md R57), with the operands of R58 to R61.
Each operand has its field's width, so within a command every operand value is legal (R64). -/
inductive Instr where
  /-- `CRC8 m` (OP 0x1): the CRC of a 24-bit message (40_crc.md R76). -/
  | crc8 (m : Message)
  /-- `BUILD addr, data` (OP 0x2): a write frame (41_frame.md R80). -/
  | build (addr : Address) (data : Half)
  /-- `VALIDATE frame, ea` (OP 0x3): check a response frame (41_frame.md R82). -/
  | validate (frame : Frame) (ea : Address)
  /-- `EXTRACT msbw, lsbw, ea` (OP 0x4): reassemble a frame from two transport words and check it (41_frame.md R86). -/
  | extract (msbw lsbw : Half) (ea : Address)
deriving DecidableEq, Repr

/-- One indivisible interaction between the host and the codec (00_scope.md R16, 60_exceptions.md R107). -/
inductive Transaction where
  /-- ISSUE of one whole 48-bit command word, legal or not (R108). -/
  | issue (cmd : Command)
  /-- READ of the result register of this number (R110). The width of the number is not stated: any Nat. -/
  | read (number : Nat)
  /-- RESET (70_reset_and_hazards.md R115). -/
  | reset
deriving DecidableEq, Repr

/-- The four result registers (10_state.md R23). -/
inductive ResultRegister where
  | rstat
  | rop
  | rcrc
  | rframe
deriving DecidableEq, Repr

/-- One line of the assembler language (30_encoding.md R66), its numbers as written: they need not fit their fields. -/
inductive SourceLine where
  /-- `CRC8 m` -/
  | crc8 (m : Nat)
  /-- `BUILD addr, data` -/
  | build (addr data : Nat)
  /-- `VALIDATE frame, ea` -/
  | validate (frame ea : Nat)
  /-- `EXTRACT msbw, lsbw, ea` -/
  | extract (msbw lsbw ea : Nat)
  /-- `.cmd w`: any 48-bit word, reserved opcodes included -/
  | cmd (w : Nat)
  /-- `READ reg`, the register already a number -/
  | read (number : Nat)
  /-- `RESET` -/
  | reset
deriving DecidableEq, Repr

/-- The operands of R66's table, by which the assembler names the one it refuses. -/
inductive Operand where
  | message
  | address
  | data
  | frame
  | expectedAddress
  | msbWord
  | lsbWord
  | commandWord
  | register
deriving DecidableEq, Repr

end Sys2Proof
end

