-- ==== Sys2Proof/Decode.lean ====
section
/-! DEFINITION. The command word: its fields, the decoder (total; a reserved opcode is rejected by name) and the encoder
(30_encoding.md R55 to R66, spec/opcode_table.json). -/

namespace Sys2Proof

/-- `OP = CMD[47:44]` (R56). -/
def opField (cmd : Command) : Opcode := cmd.extractLsb' 44 4

/-- `RSV = CMD[43:39]`: no command uses it (R56, R63). -/
def rsvField (cmd : Command) : BitVec 5 := cmd.extractLsb' 39 5

/-- `EA = CMD[38:32]` (R56). -/
def eaField (cmd : Command) : Address := cmd.extractLsb' 32 7

/-- `PL = CMD[31:0]` (R56). -/
def plField (cmd : Command) : Frame := cmd.extractLsb' 0 32

/-- Why a command word is no command of the table. -/
inductive DecodeError where
  /-- A reserved opcode, 0x0 or 0x5 to 0xF (R57, R64): the ISSUE completes as the illegal command of 60_exceptions.md R101. -/
  | illegalCommand (op : Opcode)
deriving DecidableEq, Repr

/-- The opcode map of R57, with the operands of R58 to R61. `OP` alone selects the command; the bits of R63 are not read. -/
def decode (cmd : Command) : Except DecodeError Instr :=
  if opField cmd = 0x1#4 then .ok (.crc8 ((plField cmd).extractLsb' 8 24))
  else if opField cmd = 0x2#4 then .ok (.build ((plField cmd).extractLsb' 24 7) ((plField cmd).extractLsb' 8 16))
  else if opField cmd = 0x3#4 then .ok (.validate (plField cmd) (eaField cmd))
  else if opField cmd = 0x4#4 then
    .ok (.extract ((plField cmd).extractLsb' 16 16) ((plField cmd).extractLsb' 0 16) (eaField cmd))
  else .error (.illegalCommand (opField cmd))

/-- A command word with these fields and RSV = 0 (R56, R66). -/
def commandWord (op : Opcode) (ea : Address) (pl : Frame) : Command := op ++ 0#5 ++ ea ++ pl

/-- The encodings of R66: every bit the command ignores is written 0. -/
def encode : Instr → Command
  | .crc8 m => commandWord 0x1#4 0#7 (m ++ 0#8)
  | .build addr data => commandWord 0x2#4 0#7 (0#1 ++ addr ++ data ++ 0#8)
  | .validate frame ea => commandWord 0x3#4 ea frame
  | .extract msbw lsbw ea => commandWord 0x4#4 ea (msbw ++ lsbw)

/-- The command word whose low `nbits` bits are `w`'s, numbered as the opcode table numbers them (bit 47 is the top bit of
OP), and whose other bits are 0 (log entry 13). -/
def tableCommand (nbits w : Nat) : Command := BitVec.ofNat 48 (w % 2 ^ nbits)

/-- The command the decoder reads from that word. -/
def decodeTableWord (nbits w : Nat) : Option Instr :=
  match decode (tableCommand nbits w) with
  | .ok i => some i
  | .error _ => none

end Sys2Proof
end

