-- ==== Sys2Proof/Machine/Operands.lean ====
section
/-! DEFINITION. The layout of a frame (20_memory.md R42 to R44): its fields, bytes and transport words, and the operand
forms that put frames together. -/

namespace Sys2Proof.Machine

open Sys2Proof

/-- `STS`, frame bit 31: the status/reserved bit (R43). -/
def statusBit (f : Frame) : Bool := f.getLsbD 31

/-- `ADDR`, frame bits 30:24 (R43). -/
def addressField (f : Frame) : Address := f.extractLsb' 24 7

/-- `DATA`, frame bits 23:8 (R43). -/
def dataField (f : Frame) : Half := f.extractLsb' 8 16

/-- `CRC`, frame bits 7:0 (R43). -/
def crcField (f : Frame) : Byte := f.extractLsb' 0 8

/-- Frame bytes 0 to 2, which the CRC covers, status bit included (R46). -/
def messageOf (f : Frame) : Message := f.extractLsb' 8 24

/-- Byte `i` of a frame, byte 0 the most significant (00_scope.md R14). -/
def frameByte (i : Fin 4) (f : Frame) : Byte := f.extractLsb' (24 - 8 * i.val) 8

/-- The first transport word, frame bits 31:16 (R44). -/
def msbWordOf (f : Frame) : Half := f.extractLsb' 16 16

/-- The second transport word, frame bits 15:0 (R44). -/
def lsbWordOf (f : Frame) : Half := f.extractLsb' 0 16

/-- The frame of two transport words: `MSBW ++ LSBW` (R44, 30_encoding.md R61). -/
def frameOfWords (msbw lsbw : Half) : Frame := msbw ++ lsbw

/-- A message followed by its CRC byte (40_crc.md R76). -/
def frameOfMessage (m : Message) (c : Byte) : Frame := m ++ c

/-- Bytes 0 to 2 of a write frame (41_frame.md R80): `0b0 ++ addr`, then the data, high byte first. Bit 31 is 0 (R81). -/
def writeMessage (addr : Address) (data : Half) : Message :=
  (0#1 ++ addr) ++ (data.extractLsb' 8 8 ++ data.extractLsb' 0 8)

/-- Bytes 0 to 2 of the response frame a chip would return for a register holding the data (41_frame.md R88): the status
bit is 1. -/
def responseMessage (addr : Address) (data : Half) : Message := (1#1 ++ addr) ++ data

end Sys2Proof.Machine
end

