-- ==== Sys2Proof/Machine/Flags.lean ====
section
/-! DEFINITION. RSTAT's flags (10_state.md R24 to R31) and the three frame checks that compute them (41_frame.md R83 to
R85). -/

namespace Sys2Proof.Machine

open Sys2Proof

/-- `RSTAT.HAS`, bit 7 (R25). -/
def hasFlag (v : BitVec 8) : Bool := v.getLsbD 7

/-- `RSTAT.ILL`, bit 6 (R26). -/
def illFlag (v : BitVec 8) : Bool := v.getLsbD 6

/-- `RSTAT.VALID`, bit 5 (R27). -/
def validFlag (v : BitVec 8) : Bool := v.getLsbD 5

/-- `RSTAT.STS_OK`, bit 4 (R28). -/
def stsOkFlag (v : BitVec 8) : Bool := v.getLsbD 4

/-- `RSTAT.ADDR_OK`, bit 3 (R29). -/
def addrOkFlag (v : BitVec 8) : Bool := v.getLsbD 3

/-- `RSTAT.CRC_OK`, bit 2 (R30). -/
def crcOkFlag (v : BitVec 8) : Bool := v.getLsbD 2

/-- The outcome of the three frame checks, each reported in its own flag (60_exceptions.md R105(b)). -/
structure FrameChecks where
  stsOk : Bool
  addrOk : Bool
  crcOk : Bool
deriving DecidableEq, Repr

/-- `VALID = STS_OK & ADDR_OK & CRC_OK` (R27, 41_frame.md R82). -/
def checksPass (k : FrameChecks) : Bool := k.stsOk && k.addrOk && k.crcOk

/-- The checks of a received frame against an expected address: status (R83), address (R84), CRC (R85). -/
def checkFrame (f : Frame) (ea : Address) : FrameChecks :=
  { stsOk := statusBit f
    addrOk := addressField f == ea
    crcOk := crcField f == crc8 (messageOf f) }

/-- RSTAT as a command writes it: HAS = 1, then ILL, VALID, STS_OK, ADDR_OK, CRC_OK, and `0b00` (R24, R31). -/
def packRstat (ill valid sts addr crc : Bool) : BitVec 8 :=
  1#1 ++ BitVec.ofBool ill ++ BitVec.ofBool valid ++ BitVec.ofBool sts ++ BitVec.ofBool addr ++ BitVec.ofBool crc ++ 0#2

/-- RSTAT after a legal command that checks nothing: HAS alone (R38). -/
def rstatResult : BitVec 8 := packRstat false false false false false

/-- RSTAT after an illegal command: HAS and ILL (60_exceptions.md R101). -/
def rstatIllegal : BitVec 8 := packRstat true false false false false

/-- RSTAT after VALIDATE or EXTRACT (41_frame.md R82, R86). -/
def rstatChecked (k : FrameChecks) : BitVec 8 := packRstat false (checksPass k) k.stsOk k.addrOk k.crcOk

end Sys2Proof.Machine
end

