-- ==== Sys2Proof/Config.lean ====
section
/-! DEFINITION. What is open. Every width and constant of the codec is fixed by the spec (00_scope.md R11), so the constants
here are the values the spec leaves unspecified, as constants without a body: nothing can be proved of what they are. -/

namespace Sys2Proof

/-- FREE VALUE (DESIGN CHOICE, log entry 2): the content of ROP after power-on (index 0) and after the n-th RESET (index n):
"any value" (93_implementation_defined.md U3, 10_state.md R37). -/
opaque Config.unspecifiedRop : Nat → Opcode

/-- FREE VALUE (DESIGN CHOICE, log entry 2): as `Config.unspecifiedRop`, for RCRC. -/
opaque Config.unspecifiedRcrc : Nat → Byte

/-- FREE VALUE (DESIGN CHOICE, log entry 2): as `Config.unspecifiedRop`, for RFRAME. -/
opaque Config.unspecifiedRframe : Nat → Frame

/-- OPEN parameter `READ_SELECT_WORD` (92_eei_decisions.md D19): the host's word that names the register to read. No codec
rule depends on it. -/
opaque Config.readSelectWord : Nat → Half

/-- OPEN parameter `NOP_WORD` (92_eei_decisions.md D19). No codec rule depends on it. -/
opaque Config.nopWord : Half

end Sys2Proof
end

