-- ==== Sys2Proof/Machine/State.lean ====
section
/-! DEFINITION. The machine's state as plain data: the codec's result latch (10_state.md R23), which is all the state the
codec has (R39), and the host's side of a run. -/

namespace Sys2Proof.Machine

open Sys2Proof

/-- Why a step stops: the host broke the contract of a READ (60_exceptions.md R111). Nothing else faults (R100, R107). -/
inductive Fault where
  /-- READ of ROP, RCRC or RFRAME while RSTAT.HAS = 0 (R111, 93_implementation_defined.md U1). Raised by `performRead`. Safe:
  what the hardware returns is unspecified, and the model returns nothing. -/
  | readBeforeResult (r : ResultRegister)
  /-- READ of a register number of 4 or more (R111, 10_state.md R36, U2). Raised by `performRead`. Safe: as above. -/
  | badRegister (number : Nat)
deriving DecidableEq, Repr

/-- Why the model gives no meaning. No step of this model answers it: every command word has its meaning. -/
inductive Refusal where
  /-- Reserved for an arm of `exec` without a meaning; there is none. Raised by nobody. Safe. -/
  | notModelled (mnemonic : String)
deriving DecidableEq, Repr

/-- What a READ gives the host: one whole register, at its width (20_memory.md R49, 60_exceptions.md R110). -/
inductive Reply where
  | rstat (value : BitVec 8)
  | rop (value : BitVec 4)
  | rcrc (value : BitVec 8)
  | rframe (value : BitVec 32)
deriving DecidableEq, Repr

/-- The codec's result latch, and the host's side of the run. -/
structure State where
  /-- RSTAT, register number 0 (R23, R24). -/
  rstat : BitVec 8
  /-- ROP, register number 1 (R23, R32). -/
  rop : BitVec 4
  /-- RCRC, register number 2 (R23, R33). -/
  rcrc : BitVec 8
  /-- RFRAME, register number 3 (R23, R34). -/
  rframe : BitVec 32
  /-- The host's transactions from the next one on (R21, R107; log entry 1). -/
  pending : List Transaction
  /-- The index of the next transaction in the host's sequence (R21). Not visible to the codec. -/
  position : Nat
  /-- What the host's READs have returned, oldest first (R107; log entry 3). -/
  replies : List Reply
  /-- The model's own: how many RESETs were performed, the index of the free contents they leave (log entry 2). -/
  resetCount : Nat
deriving DecidableEq, Repr

/-- Power-on (70_reset_and_hazards.md R116, 10_state.md R37): RSTAT = 0x00; ROP, RCRC and RFRAME hold unspecified contents
(free values, log entry 2); no transaction has been performed, and none is pending (log entry 1). -/
def State.reset : State :=
  { rstat := 0x00#8
    rop := Config.unspecifiedRop 0
    rcrc := Config.unspecifiedRcrc 0
    rframe := Config.unspecifiedRframe 0
    pending := []
    position := 0
    replies := []
    resetCount := 0 }

end Sys2Proof.Machine
end

