-- ==== Sys2Proof/Machine/Ops.lean ====
section
/-! DEFINITION. The named operations over the state: the atomic write of the result latch, the illegal command (the codec's
only exceptional outcome), the contents a reset leaves, the register read with the views of RFRAME, and the host's
position. -/

namespace Sys2Proof.Machine

open Sys2Proof

/-- Write RSTAT, ROP, RCRC and RFRAME together, as one atomic step (20_memory.md R50). Every command's only effect (R51). -/
def writeLatch (rstat : BitVec 8) (rop : Opcode) (rcrc : Byte) (rframe : Frame) (s : State) : State :=
  { s with rstat := rstat, rop := rop, rcrc := rcrc, rframe := rframe }

/-- What VALIDATE and EXTRACT share (41_frame.md R82, R86): check the frame, report each check, keep the frame as received
whether or not it is valid (R89), and record the recomputed CRC (R85). -/
def writeChecked (op : Opcode) (f : Frame) (ea : Address) (s : State) : State :=
  writeLatch (rstatChecked (checkFrame f ea)) op (crc8 (messageOf f)) f s

/-- The illegal command, in place of a trap (60_exceptions.md R100, R101): RSTAT = 0xC0, the offending opcode in ROP, RCRC
and RFRAME zero. There is no return from it: the next ISSUE or RESET rewrites ILL (R106). -/
def takeIllegal (op : Opcode) (s : State) : State := writeLatch rstatIllegal op 0x00#8 0x00000000#32 s

/-- The reset of the latch (70_reset_and_hazards.md R115): RSTAT = 0x00, and ROP, RCRC and RFRAME left with unspecified
contents, free values drawn anew at each RESET (93_implementation_defined.md U3; log entry 2). -/
def resetLatch (s : State) : State :=
  { s with
    rstat := 0x00#8
    rop := Config.unspecifiedRop (s.resetCount + 1)
    rcrc := Config.unspecifiedRcrc (s.resetCount + 1)
    rframe := Config.unspecifiedRframe (s.resetCount + 1)
    resetCount := s.resetCount + 1 }

/-- RSTAT as it reads: bits 1:0 are reserved and read 0 at all times (10_state.md R31; log entry 5). -/
def rstatValue (s : State) : BitVec 8 := s.rstat &&& 0xFC#8

/-- The register of this number; none from 4 up (10_state.md R23, R36). -/
def registerOfNumber : Nat → Option ResultRegister
  | 0 => some .rstat
  | 1 => some .rop
  | 2 => some .rcrc
  | 3 => some .rframe
  | _ => none

/-- The whole value of a register, at its width (R23, 60_exceptions.md R110). -/
def readRegister (r : ResultRegister) (s : State) : Reply :=
  match r with
  | .rstat => .rstat (rstatValue s)
  | .rop => .rop s.rop
  | .rcrc => .rcrc s.rcrc
  | .rframe => .rframe s.rframe

/-- May the host read this register now (R111)? RSTAT always; the others once a command has completed since reset. -/
def readAllowed (r : ResultRegister) (s : State) : Bool := r == .rstat || hasFlag s.rstat

/-- Give the host the value of a READ. -/
def giveReply (v : Reply) (s : State) : State := { s with replies := s.replies ++ [v] }

/-- The host's next transaction, if it has one (R21, R107). -/
def nextTransaction (s : State) : Option Transaction := s.pending.head?

/-- Move the host past its next transaction: the position is the index of the transaction after it (R21). -/
def advance (s : State) : State := { s with pending := s.pending.tail, position := s.position + 1 }

/-- The view `RSTS` (10_state.md R35). -/
def State.rsts (s : State) : Bool := statusBit s.rframe

/-- The view `RADDR` (R35). -/
def State.raddr (s : State) : Address := addressField s.rframe

/-- The view `RDATA` (R35). -/
def State.rdata (s : State) : Half := dataField s.rframe

/-- The view `RFCRC` (R35). -/
def State.rfcrc (s : State) : Byte := crcField s.rframe

/-- The view `RMSBW` (R35). -/
def State.rmsbw (s : State) : Half := msbWordOf s.rframe

/-- The view `RLSBW` (R35). -/
def State.rlsbw (s : State) : Half := lsbWordOf s.rframe

/-- The views `RBYTE0` to `RBYTE3` (R35). -/
def State.rbyte (i : Fin 4) (s : State) : Byte := frameByte i s.rframe

end Sys2Proof.Machine
end

