-- ==== Sys2Proof/Machine/CrcCommand.lean ====
section
/-! DEFINITION. The meaning of CRC8 (40_crc.md R76). -/

namespace Sys2Proof.Machine

open Sys2Proof

/-- CRC8 (R76): RCRC is the message's CRC and RFRAME the message followed by it; HAS = 1 and every other flag 0. -/
def execCrc8 (m : Message) (s : State) : Host.Outcome State Fault Refusal :=
  .next (writeLatch rstatResult 0x1#4 (crc8 m) (frameOfMessage m (crc8 m)) s)

end Sys2Proof.Machine
end

