-- ==== Sys2Proof/Machine/FrameCommands.lean ====
section
/-! DEFINITION. The meanings of the serializer and the parser: BUILD, VALIDATE and EXTRACT (41_frame.md). -/

namespace Sys2Proof.Machine

open Sys2Proof

/-- BUILD (R80): the write frame of an address and a data value, with its CRC; HAS = 1 and every other flag 0. -/
def execBuild (addr : Address) (data : Half) (s : State) : Host.Outcome State Fault Refusal :=
  let m := writeMessage addr data
  .next (writeLatch rstatResult 0x2#4 (crc8 m) (frameOfMessage m (crc8 m)) s)

/-- VALIDATE (R82): check the frame against the expected address. -/
def execValidate (f : Frame) (ea : Address) (s : State) : Host.Outcome State Fault Refusal :=
  .next (writeChecked 0x3#4 f ea s)

/-- EXTRACT (R86): reassemble the frame from its two transport words and check it. -/
def execExtract (msbw lsbw : Half) (ea : Address) (s : State) : Host.Outcome State Fault Refusal :=
  .next (writeChecked 0x4#4 (frameOfWords msbw lsbw) ea s)

end Sys2Proof.Machine
end

