-- ==== Sys2Proof/Machine/Dispatch.lean ====
section
/-! DEFINITION. One arm per command of the opcode table (30_encoding.md R57). -/

namespace Sys2Proof.Machine

open Sys2Proof

/-- The meaning of a decoded command (60_exceptions.md R108). -/
def exec (i : Instr) (s : State) : Host.Outcome State Fault Refusal :=
  match i with
  | .crc8 m => Sys2Proof.Machine.execCrc8 m s
  | .build addr data => Sys2Proof.Machine.execBuild addr data s
  | .validate f ea => Sys2Proof.Machine.execValidate f ea s
  | .extract msbw lsbw ea => Sys2Proof.Machine.execExtract msbw lsbw ea s

end Sys2Proof.Machine
end

