-- ==== Sys2Proof/Machine/Transactions.lean ====
section
/-! DEFINITION. The three transactions of the host (60_exceptions.md R107): ISSUE, READ and RESET. -/

namespace Sys2Proof.Machine

open Sys2Proof

/-- ISSUE (R108): decode the command word and perform its rule; a reserved opcode completes as the illegal command (R101),
before anything else of the word is looked at (R105(a)). -/
def performIssue (cmd : Command) (s : State) : Host.Outcome State Fault Refusal :=
  match decode cmd with
  | .ok i => exec i s
  | .error (.illegalCommand op) => .next (takeIllegal op s)

/-- READ (R110): the register's whole value goes to the host and nothing else changes (20_memory.md R51). A READ that breaks
the contract faults, as the spec orders (R111; 10_state.md R36, R37; 93_implementation_defined.md U1, U2). -/
def performRead (number : Nat) (s : State) : Host.Outcome State Fault Refusal :=
  match registerOfNumber number with
  | none => .fault (.badRegister number)
  | some r => if readAllowed r s then .next (giveReply (readRegister r s) s) else .fault (.readBeforeResult r)

/-- RESET (70_reset_and_hazards.md R115). -/
def performReset (s : State) : Host.Outcome State Fault Refusal := .next (resetLatch s)

/-- One transaction. -/
def perform (t : Transaction) (s : State) : Host.Outcome State Fault Refusal :=
  match t with
  | .issue cmd => performIssue cmd s
  | .read number => performRead number s
  | .reset => performReset s

/-- The host's next transaction, performed with the host already past it; with none pending nothing happens (log entry 4). -/
def performNext (s : State) : Host.Outcome State Fault Refusal :=
  match nextTransaction s with
  | none => .next s
  | some t => perform t (advance s)

/-- Put the ISSUE of a command word before everything the host has pending. -/
def issueNext (cmd : Command) (s : State) : State := { s with pending := .issue cmd :: s.pending }

end Sys2Proof.Machine
end

