-- ==== Sys2Proof/Machine/Step.lean ====
section
/-! DEFINITION. One step: one transaction (00_scope.md R16). -/

namespace Sys2Proof.Machine

open Sys2Proof

/-- The host's next transaction is performed on the codec (60_exceptions.md R107). -/
def step (s : State) : Host.Outcome State Fault Refusal := performNext s

/-- The state in which the very next step is the ISSUE of this command word (log entry 1). -/
def State.withFetchWord (s : State) (nbits w : Nat) : State := issueNext (tableCommand nbits w) s

end Sys2Proof.Machine
end

