-- ==== Sys2Proof/WellFormed.lean ====
section
/-! DEFINITION. Which terms are well formed. Every `Instr` is: its operands have their fields' widths by type, and 30_encoding.md
R64 makes every value of every field of a legal opcode legal. A line of the assembler is well formed when each of its
numbers fits its field unsigned (R66). -/

namespace Sys2Proof

/-- Does the number fit `w` bits, unsigned (R66)? -/
def fitsWidth (w n : Nat) : Bool := n < 2 ^ w

/-- The first operand in `checks` (operand, does it fit) that does not fit. -/
def firstUnfit : List (Operand × Bool) → Option Operand
  | [] => none
  | (o, ok) :: rest => if ok then firstUnfit rest else some o

/-- The bounds of R66's table, operand by operand, left to right. A register is a number 0 to 3. -/
def SourceLine.checks : SourceLine → List (Operand × Bool)
  | .crc8 m => [(.message, fitsWidth 24 m)]
  | .build addr data => [(.address, fitsWidth 7 addr), (.data, fitsWidth 16 data)]
  | .validate frame ea => [(.frame, fitsWidth 32 frame), (.expectedAddress, fitsWidth 7 ea)]
  | .extract msbw lsbw ea =>
    [(.msbWord, fitsWidth 16 msbw), (.lsbWord, fitsWidth 16 lsbw), (.expectedAddress, fitsWidth 7 ea)]
  | .cmd w => [(.commandWord, fitsWidth 48 w)]
  | .read number => [(.register, fitsWidth 2 number)]
  | .reset => []

/-- The operand for which the assembler refuses the line, if there is one. -/
def SourceLine.unfit (l : SourceLine) : Option Operand := firstUnfit l.checks

/-- Every operand of the line fits its field (R66). -/
def SourceLine.wf (l : SourceLine) : Bool := l.unfit.isNone

end Sys2Proof
end

