-- ==== Sys2Proof/Machine/Assembler.lean ====
section
/-! DEFINITION. The assembler (30_encoding.md R66 to R68): one line is one transaction; a line it cannot take is refused by
name and line number. -/

namespace Sys2Proof.Machine

open Sys2Proof

/-- The transaction of a line, or the operand that does not fit (R66); of several, the leftmost (DESIGN CHOICE, log
entry 9). -/
def assemble (l : SourceLine) : Except Operand Transaction :=
  match l.unfit with
  | some o => .error o
  | none =>
    match l with
    | .crc8 m => .ok (.issue (encode (.crc8 (BitVec.ofNat 24 m))))
    | .build addr data => .ok (.issue (encode (.build (BitVec.ofNat 7 addr) (BitVec.ofNat 16 data))))
    | .validate frame ea => .ok (.issue (encode (.validate (BitVec.ofNat 32 frame) (BitVec.ofNat 7 ea))))
    | .extract msbw lsbw ea =>
      .ok (.issue (encode (.extract (BitVec.ofNat 16 msbw) (BitVec.ofNat 16 lsbw) (BitVec.ofNat 7 ea))))
    | .cmd w => .ok (.issue (BitVec.ofNat 48 w))
    | .read number => .ok (.read number)
    | .reset => .ok .reset

/-- Why a line of text is refused. R66 says "by name" and lists no reasons: these four are the model's (DESIGN CHOICE, log
entry 9). -/
inductive LineError where
  /-- The first word is no mnemonic of R66. -/
  | unknownMnemonic
  /-- The mnemonic takes another number of operands. -/
  | operandCount
  /-- This operand is no number (and, for READ, no register name). -/
  | notANumber (o : Operand)
  /-- This operand does not fit its field. -/
  | doesNotFit (o : Operand)
deriving DecidableEq, Repr

/-- White space within a line (DESIGN CHOICE, log entry 9). -/
def isBlank (c : Char) : Bool := c == ' ' || c == '\t' || c == '\r'

/-- Drop the white space at both ends. -/
def trimBlanks (cs : List Char) : List Char := ((cs.dropWhile isBlank).reverse.dropWhile isBlank).reverse

/-- Cut at every occurrence of a character. -/
def cutAt (sep : Char) : List Char → List (List Char)
  | [] => [[]]
  | c :: cs =>
    match cutAt sep cs with
    | [] => [[c]]
    | w :: ws => if c = sep then [] :: w :: ws else (c :: w) :: ws

/-- The value of a digit character, in either letter case. -/
def digitValue (c : Char) : Option Nat :=
  if '0' ≤ c ∧ c ≤ '9' then some (c.toNat - '0'.toNat)
  else if 'a' ≤ c ∧ c ≤ 'f' then some (c.toNat - 'a'.toNat + 10)
  else if 'A' ≤ c ∧ c ≤ 'F' then some (c.toNat - 'A'.toNat + 10)
  else none

/-- The number of digits in `base` read after the value `acc`. -/
def digitsValue (base : Nat) : Nat → List Char → Option Nat
  | acc, [] => some acc
  | acc, c :: cs =>
    match digitValue c with
    | none => none
    | some d => if d < base then digitsValue base (acc * base + d) cs else none

/-- At least one digit in `base`. -/
def digitsNumber (base : Nat) (cs : List Char) : Option Nat := if cs.isEmpty then none else digitsValue base 0 cs

/-- "Numbers are hexadecimal with a `0x` prefix or decimal" (R66). -/
def parseNumber : List Char → Option Nat
  | '0' :: 'x' :: cs => digitsNumber 16 cs
  | cs => digitsNumber 10 cs

/-- READ's operand: a register's name or a number (R66). -/
def parseRegister (cs : List Char) : Option Nat :=
  if cs = "RSTAT".toList then some 0
  else if cs = "ROP".toList then some 1
  else if cs = "RCRC".toList then some 2
  else if cs = "RFRAME".toList then some 3
  else parseNumber cs

/-- One operand of a line, refused by its name. -/
def parseOperand (o : Operand) (cs : List Char) : Except LineError Nat :=
  match parseNumber cs with
  | some n => .ok n
  | none => .error (.notANumber o)

/-- The operands after a mnemonic: cut at commas; none where nothing stands. -/
def operandTexts (cs : List Char) : List (List Char) :=
  if (trimBlanks cs).isEmpty then [] else (cutAt ',' cs).map trimBlanks

/-- A line's mnemonic and operands (R66). Which refusal a line with several faults gets is not stated (DESIGN CHOICE, log
entry 9): the mnemonic is looked at first, then the number of operands, then from the left whether each is a number. -/
def parseCommand (mnemonic : List Char) (ops : List (List Char)) : Except LineError SourceLine :=
  if mnemonic = "CRC8".toList then
    match ops with
    | [m] => do return .crc8 (← parseOperand .message m)
    | _ => .error .operandCount
  else if mnemonic = "BUILD".toList then
    match ops with
    | [a, d] => do return .build (← parseOperand .address a) (← parseOperand .data d)
    | _ => .error .operandCount
  else if mnemonic = "VALIDATE".toList then
    match ops with
    | [f, ea] => do return .validate (← parseOperand .frame f) (← parseOperand .expectedAddress ea)
    | _ => .error .operandCount
  else if mnemonic = "EXTRACT".toList then
    match ops with
    | [h, l, ea] => do
      return .extract (← parseOperand .msbWord h) (← parseOperand .lsbWord l) (← parseOperand .expectedAddress ea)
    | _ => .error .operandCount
  else if mnemonic = ".cmd".toList then
    match ops with
    | [w] => do return .cmd (← parseOperand .commandWord w)
    | _ => .error .operandCount
  else if mnemonic = "READ".toList then
    match ops with
    | [r] =>
      match parseRegister r with
      | some n => .ok (.read n)
      | none => .error (.notANumber .register)
    | _ => .error .operandCount
  else if mnemonic = "RESET".toList then
    match ops with
    | [] => .ok .reset
    | _ => .error .operandCount
  else .error .unknownMnemonic

/-- One line of text, `;` starting a comment (R66): its line of the language, or none where only a comment stands. -/
def parseLine (text : List Char) : Except LineError (Option SourceLine) :=
  let body := trimBlanks (text.takeWhile (· ≠ ';'))
  if body.isEmpty then .ok none
  else
    match parseCommand (body.takeWhile (fun c => !isBlank c)) (operandTexts (body.dropWhile (fun c => !isBlank c))) with
    | .ok l => .ok (some l)
    | .error e => .error e

/-- One line of text to its transaction, none where only a comment stands. A malformed part (the mnemonic, the number of
operands, an operand that is no number) is reported before any misfit (DESIGN CHOICE, log entry 9): BUILD 0x80, xyz is
refused for its data, which is no number, and not for its address, which does not fit. -/
def assembleLine (text : List Char) : Except LineError (Option Transaction) :=
  match parseLine text with
  | .error e => .error e
  | .ok none => .ok none
  | .ok (some l) =>
    match assemble l with
    | .ok t => .ok (some t)
    | .error o => .error (.doesNotFit o)

/-- The lines from number `n` on: their transactions in order, or the first refused line by its number (R66). -/
def assembleLines : Nat → List (List Char) → Except (Nat × LineError) (List Transaction)
  | _, [] => .ok []
  | n, text :: rest =>
    match assembleLine text with
    | .error e => .error (n, e)
    | .ok t =>
      match assembleLines (n + 1) rest with
      | .error e => .error e
      | .ok ts => .ok (t.toList ++ ts)

/-- A whole text, its lines numbered from 1 (R66). -/
def assembleText (text : List Char) : Except (Nat × LineError) (List Transaction) := assembleLines 1 (cutAt '\n' text)

end Sys2Proof.Machine
end

