-- ==== Sys2Proof/Machine/HostUse.lean ====
section
/-! DEFINITION. What the host does with the codec (60_exceptions.md R102, R103, R105(d), R112), as plain functions: the
transactions it issues, the words it sends, and the outcome it reports. No codec rule depends on them. -/

namespace Sys2Proof.Machine

open Sys2Proof

/-- The three error kinds (R103). -/
inductive ErrorKind where
  /-- The Transport Adapter received no complete frame (busy flag or timeout). -/
  | transportFailure
  /-- A VALIDATE or EXTRACT left VALID = 0 (R102). -/
  | crcFailure
  /-- A read-back was valid and its data differ from the data written (R112). -/
  | wrongDataWritten
deriving DecidableEq, Repr

/-- What the Transport Adapter gives for a read: no frame within its timeout window, or the two words of one frame
(R105(d), R112, 70_reset_and_hazards.md R121; log entry 10). -/
inductive Reception where
  | abandoned
  | words (msbw lsbw : Half)
deriving DecidableEq, Repr

/-- The two halves of a frame in the order the host sends them, MSBW first (20_memory.md R45). -/
def transmitWords (f : Frame) : List Half := [msbWordOf f, lsbWordOf f]

/-- The codec's part of a register write (R112): build the frame and read it. -/
def writeTransactions (addr : Address) (data : Half) : List Transaction :=
  [.issue (encode (.build addr data)), .read 3]

/-- What the host sends to request a register (R112): the read-select word and the no-op word, both OPEN (D19). -/
def readRequestWords (target : Address) : List Half := [Config.readSelectWord target.toNat, Config.nopWord]

/-- The codec's part of a register read (R112): EXTRACT the two words with the requested register as EA
(70_reset_and_hazards.md R122), then read RSTAT and RFRAME. A timeout issues no EXTRACT (R105(d)). -/
def readTransactions (target : Address) : Reception → List Transaction
  | .abandoned => []
  | .words msbw lsbw => [.issue (encode (.extract msbw lsbw target)), .read 0, .read 3]

/-- The outcome of a register read, from the RSTAT and RFRAME read after the EXTRACT (R102, R112): VALID = 1 is success with
data RDATA, VALID = 0 is CrcFailure, and a timeout is TransportFailure. -/
def readOutcome (r : Reception) (rstat : BitVec 8) (rframe : Frame) : Except ErrorKind Half :=
  match r with
  | .abandoned => .error .transportFailure
  | .words _ _ => if validFlag rstat then .ok (dataField rframe) else .error .crcFailure

/-- The outcome of a write-with-validate (R112, D22): compare only when the read-back succeeded; a failed read-back is
reported as its own kind. -/
def writeWithValidateOutcome (written : Half) (readBack : Except ErrorKind Half) : Except ErrorKind Unit :=
  match readBack with
  | .error k => .error k
  | .ok data => if data = written then .ok () else .error .wrongDataWritten

end Sys2Proof.Machine
end

