-- ==== Sys2Proof/Safety.lean ====
section
/-! DEFINITION. What counts as a safe run: the host keeps the READ contract (60_exceptions.md R107, R111), and the latch is
always one that a command or a reset leaves (10_state.md R38). -/

namespace Sys2Proof.Machine

open Sys2Proof

/-- The READ contract over a sequence of transactions (R107, "the host may not"), `has` saying whether a command has
completed since the last reset: number 0 may be read at any time, 1 to 3 while a result is there, none from 4 up. -/
def contractHolds : Bool → List Transaction → Bool
  | _, [] => true
  | _, .issue _ :: ts => contractHolds true ts
  | has, .read n :: ts => (n == 0 || (n < 4 && has)) && contractHolds has ts
  | _, .reset :: ts => contractHolds false ts

/-- An opcode of the table (30_encoding.md R57): the others are reserved. -/
def opcodeLegal (op : Opcode) : Bool := op == 0x1#4 || op == 0x2#4 || op == 0x3#4 || op == 0x4#4

/-- The latch agrees with itself as the flag table R38 requires: what every reachable state satisfies. -/
structure LatchInv (s : State) : Prop where
  /-- RSTAT[1:0] is 0 (R31). -/
  reserved_zero : s.rstat.extractLsb' 0 2 = 0#2
  /-- With no result since reset, every flag is clear (R37). -/
  empty_clear : hasFlag s.rstat = false → s.rstat = 0x00#8
  /-- After an illegal command: R101. -/
  illegal_latch : hasFlag s.rstat = true → illFlag s.rstat = true →
    s.rstat = 0xC0#8 ∧ opcodeLegal s.rop = false ∧ s.rcrc = 0x00#8 ∧ s.rframe = 0x00000000#32
  /-- After a legal command RCRC is the CRC of RFRAME's bytes 0 to 2 (R33, R34). -/
  legal_crc : hasFlag s.rstat = true → illFlag s.rstat = false →
    opcodeLegal s.rop = true ∧ s.rcrc = crc8 (messageOf s.rframe)
  /-- After CRC8 or BUILD no check flag is set and RFRAME ends in its CRC (R27 to R30, 40_crc.md R76, 41_frame.md R80). -/
  made_frame : hasFlag s.rstat = true → s.rop = 0x1#4 ∨ s.rop = 0x2#4 → s.rstat = 0x80#8 ∧ crcField s.rframe = s.rcrc
  /-- A built frame's bit 31 is 0 (R81). -/
  built_status_clear : hasFlag s.rstat = true → s.rop = 0x2#4 → statusBit s.rframe = false
  /-- After VALIDATE or EXTRACT the flags report RFRAME's checks, and VALID is their conjunction (R82 to R85). -/
  checked_frame : hasFlag s.rstat = true → s.rop = 0x3#4 ∨ s.rop = 0x4#4 →
    stsOkFlag s.rstat = statusBit s.rframe ∧ crcOkFlag s.rstat = (crcField s.rframe == s.rcrc) ∧
      validFlag s.rstat = (stsOkFlag s.rstat && addrOkFlag s.rstat && crcOkFlag s.rstat)

end Sys2Proof.Machine
end

