-- ==== Sys2Proof/Certificates/Slice0/Obligations.lean ====
section
/-! DEFINITION. The statements, from the numbered rules of spec/. First the spec's own tables and forms that they compare
the model with, written from the spec and not from the model's operations. -/

namespace Sys2Proof.Spec

open Sys2Proof Sys2Proof.Machine Polynomial

/-- A bit vector as a polynomial over GF(2), bit `k` the coefficient of `x^k` (40_crc.md R73). -/
noncomputable def polyOf {w : Nat} (v : BitVec w) : (ZMod 2)[X] :=
  ∑ k ∈ Finset.range w, if v.getLsbD k then (X ^ k : (ZMod 2)[X]) else 0

/-- The generator `P(x) = x^8 + x^2 + x + 1` (R71). -/
noncomputable def generator : (ZMod 2)[X] := X ^ 8 + X ^ 2 + X + 1

/-- How many bits of an error pattern are set. -/
def weight (e : BitVec 32) : Nat := (List.range 32).countP (fun k => e.getLsbD k)

/-- The error pattern with exactly the listed bits flipped. -/
def errorPattern (ks : List Nat) : BitVec 32 := ks.foldl (fun e k => e ^^^ (1#32 <<< k)) 0#32

/-- One row of the table of 10_state.md R38: what a command leaves in the latch. -/
structure LatchRow where
  rstat : BitVec 8
  rop : BitVec 4
  rcrc : BitVec 8
  rframe : BitVec 32
deriving DecidableEq, Repr

/-- The row of a VALIDATE or EXTRACT: `1 0 s&a&c s a c 00`, the CRC recomputed over frame bits 31:8, and the frame. -/
def checkedRow (cmd : BitVec 48) : LatchRow :=
  let c := crc8 (cmd.extractLsb' 8 24)
  let sts := cmd.extractLsb' 31 1
  let adr := BitVec.ofBool (cmd.extractLsb' 24 7 == cmd.extractLsb' 32 7)
  let crc := BitVec.ofBool (cmd.extractLsb' 0 8 == c)
  { rstat := 0b10#2 ++ (sts &&& adr &&& crc) ++ sts ++ adr ++ crc ++ 0b00#2
    rop := cmd.extractLsb' 44 4
    rcrc := c
    rframe := cmd.extractLsb' 0 32 }

/-- The table of R38: the latch after a command word, from its bits alone. -/
def latchRow (cmd : BitVec 48) : LatchRow :=
  if cmd.extractLsb' 44 4 = 1#4 then
    let m := cmd.extractLsb' 8 24
    { rstat := 0x80#8, rop := 0x1#4, rcrc := crc8 m, rframe := m ++ crc8 m }
  else if cmd.extractLsb' 44 4 = 2#4 then
    let m : BitVec 24 := 0#1 ++ cmd.extractLsb' 24 7 ++ cmd.extractLsb' 8 16
    { rstat := 0x80#8, rop := 0x2#4, rcrc := crc8 m, rframe := m ++ crc8 m }
  else if cmd.extractLsb' 44 4 = 3#4 then checkedRow cmd
  else if cmd.extractLsb' 44 4 = 4#4 then checkedRow cmd
  else { rstat := 0xC0#8, rop := cmd.extractLsb' 44 4, rcrc := 0x00#8, rframe := 0x00000000#32 }

/-- The state with this row in its latch, and nothing else changed. -/
def withRow (r : LatchRow) (s : State) : State :=
  { s with rstat := r.rstat, rop := r.rop, rcrc := r.rcrc, rframe := r.rframe }

/-- What a READ of number `n` returns by 20_memory.md R53, from the latest ISSUE since the last RESET, if there is one:
RSTAT is 0x00 where there is none (10_state.md R37). -/
def replyAfter (last : Option (BitVec 48)) (n : Nat) : Reply :=
  match last with
  | none => .rstat 0x00#8
  | some cmd =>
    match n with
    | 0 => .rstat (latchRow cmd).rstat
    | 1 => .rop (latchRow cmd).rop
    | 2 => .rcrc (latchRow cmd).rcrc
    | _ => .rframe (latchRow cmd).rframe

/-- What a sequence of transactions returns to the host, knowing only the latest ISSUE before it (R22, R53). -/
def repliesOf : Option (BitVec 48) → List Transaction → List Reply
  | _, [] => []
  | _, .issue cmd :: ts => repliesOf (some cmd) ts
  | last, .read n :: ts => replyAfter last n :: repliesOf last ts
  | _, .reset :: ts => repliesOf none ts

/-- The latch holds the results of this latest ISSUE, or of none since reset. -/
def LatchHolds (last : Option (BitVec 48)) (s : State) : Prop :=
  match last with
  | none => s.rstat = 0x00#8
  | some cmd => s = withRow (latchRow cmd) s

/-- What a run shows to the host and to an observer of the flags: RSTAT, the replies and the transactions left, or the fault
that stopped it. ROP, RCRC and RFRAME are seen through READs alone. -/
def visible (o : Host.Outcome State Fault Refusal) :
    Except (Option Fault) (BitVec 8 × List Reply × List Transaction) :=
  match o with
  | .next t => .ok (t.rstat, t.replies, t.pending)
  | .fault e => .error (some e)
  | .refused _ => .error none

/-- The bits each command uses (30_encoding.md R63: all but RSV, EA in CRC8 and BUILD, PL[7:0] in CRC8, PL[31] and PL[7:0]
in BUILD). -/
def usedBits : Instr → BitVec 48
  | .crc8 _ => 0xF000FFFFFF00#48
  | .build _ _ => 0xF0007FFFFF00#48
  | .validate _ _ => 0xF07FFFFFFFFF#48
  | .extract _ _ _ => 0xF07FFFFFFFFF#48

end Sys2Proof.Spec

open Sys2Proof Sys2Proof.Machine Sys2Proof.Spec Polynomial

/-! ### The CRC (40_crc.md) -/

/-- R70: the loop as the rule writes it, `i` from 31 down to 8. -/
def Obligations.Crc8IsTheLoopOfBits31DownTo8 : Prop :=
  ∀ m : BitVec 24, crc8 m =
    ((List.range 24).foldl
      (fun acc k => if acc.getLsbD (31 - k) then acc ^^^ (0x107#32 <<< (31 - k - 8)) else acc)
      (m ++ 0#8)).extractLsb' 0 8

/-- R72, the loop's own facts: each step clears the bit it tests and leaves the bits above it, and the loop ends with bits
31:8 clear. -/
def Obligations.CrcLoopClearsTheUpperBits : Prop :=
  (∀ (acc : BitVec 32) (i : Nat), 8 ≤ i → i ≤ 31 → (crcStep acc i).getLsbD i = false) ∧
  (∀ (acc : BitVec 32) (i j : Nat), 8 ≤ i → i < j → (crcStep acc i).getLsbD j = acc.getLsbD j) ∧
  (∀ acc : BitVec 32, (crcLoop 24 acc).extractLsb' 8 24 = 0#24)

/-- R73: the CRC is the unique polynomial of degree below 8 congruent to `m(x)·x^8` modulo the generator. -/
def Obligations.Crc8IsThePolynomialRemainder : Prop :=
  ∀ (m : BitVec 24) (c : (ZMod 2)[X]),
    (c.degree < 8 ∧ generator ∣ polyOf m * X ^ 8 - c) ↔ c = polyOf (crc8 m)

/-- R74: the byte-wise form equals the loop for every message; its `T` is `v(x)·x^8 mod P`, is `crc8` of the byte extended,
is the bit-serial form, and is the rule's table; and the rule's worked check. -/
def Obligations.BytewiseCrcEqualsTheLoop : Prop :=
  (∀ m : BitVec 24, crc8 m = crcBytewise m) ∧
  (∀ v : BitVec 8, crcByte v = crc8 (v.setWidth 24) ∧ crcByte v = crcTableEntry v ∧
    (polyOf (crcByte v)).degree < 8 ∧ generator ∣ polyOf v * X ^ 8 - polyOf (crcByte v)) ∧
  (crcByte 0x41#8 = 0xC0#8 ∧ crcByte (0xC0#8 ^^^ 0x00#8) = 0x4E#8 ∧ crcByte (0x4E#8 ^^^ 0x2E#8) = 0x27#8 ∧
    crc8 0x41002E#24 = 0x27#8)

/-- R75: linearity, the basis with its table, and the shifts that stay within 32 bits. -/
def Obligations.CrcIsLinearWithTheBasisTable : Prop :=
  (∀ a b : BitVec 24, crc8 (a ^^^ b) = crc8 a ^^^ crc8 b) ∧ crc8 0x000000#24 = 0x00#8 ∧
  (∀ k, k < 24 → crcBasis[k]? = some (crc8 (1#24 <<< k))) ∧
  (∀ m : BitVec 24,
    crc8 m = (List.range 24).foldl (fun c k => if m.getLsbD k then c ^^^ crcBasis.getD k 0#8 else c) 0#8) ∧
  (∀ k, k ≤ 23 → (crcGenerator <<< k).toNat = 0x107 * 2 ^ k) ∧ (crcGenerator <<< 23) = 0x83800000#32

/-- R77: the remainder of a whole frame, and when a frame's CRC byte is correct. -/
def Obligations.FrameRemainderIsCrcXorCrcByte : Prop :=
  ∀ f : BitVec 32,
    rem32 f = crc8 (f.extractLsb' 8 24) ^^^ f.extractLsb' 0 8 ∧
    (f.extractLsb' 0 8 = crc8 (f.extractLsb' 8 24) ↔ rem32 f = 0x00#8)

/-- R78, for every frame: which corruptions fail the CRC check, and that errors of weight 1, 2, 3 or odd weight and bursts of
length 8 or less all do. -/
def Obligations.SmallErrorsFailTheCrcCheck : Prop :=
  ∀ (f e : BitVec 32) (ea : BitVec 7), (checkFrame f ea).crcOk = true → e ≠ 0#32 →
    ((checkFrame (f ^^^ e) ea).crcOk = false ↔ rem32 e ≠ 0x00#8) ∧
    (weight e ≤ 3 → (checkFrame (f ^^^ e) ea).crcOk = false) ∧
    (weight e % 2 = 1 → (checkFrame (f ^^^ e) ea).crcOk = false) ∧
    ((∃ (b : BitVec 8) (k : Nat), k ≤ 24 ∧ e = b.setWidth 32 <<< k) → (checkFrame (f ^^^ e) ea).crcOk = false)

/-- R78: of the 35,960 error patterns of weight 4, exactly 284 leave the remainder 0 and so are not detected. -/
def Obligations.UndetectedWeightFourPatternsNumber284 : Prop :=
  ((List.range 32).sublistsLen 4).length = 35960 ∧
  ((List.range 32).sublistsLen 4).countP (fun ks => rem32 (errorPattern ks) == 0x00#8) = 284

/-- 20_memory.md R46: the CRC covers the status bit, so the two settings of it give different CRCs for every address and
data. -/
def Obligations.StatusBitChangesTheCrc : Prop :=
  ∀ (a : BitVec 7) (d : BitVec 16),
    crc8 (0#1 ++ a ++ d) ^^^ crc8 (1#1 ++ a ++ d) = 0x0B#8 ∧ crc8 (0#1 ++ a ++ d) ≠ crc8 (1#1 ++ a ++ d)

/-! ### Encoding (30_encoding.md) -/

/-- R57: the opcode map, with each operand at its bits of the command word (R58 to R61). OP alone selects. -/
def Obligations.OpcodeSelectsCommandAndOperands : Prop :=
  ∀ cmd : BitVec 48,
    (cmd.extractLsb' 44 4 = 0x1#4 → decode cmd = .ok (.crc8 (cmd.extractLsb' 8 24))) ∧
    (cmd.extractLsb' 44 4 = 0x2#4 → decode cmd = .ok (.build (cmd.extractLsb' 24 7) (cmd.extractLsb' 8 16))) ∧
    (cmd.extractLsb' 44 4 = 0x3#4 → decode cmd = .ok (.validate (cmd.extractLsb' 0 32) (cmd.extractLsb' 32 7))) ∧
    (cmd.extractLsb' 44 4 = 0x4#4 →
      decode cmd = .ok (.extract (cmd.extractLsb' 16 16) (cmd.extractLsb' 0 16) (cmd.extractLsb' 32 7))) ∧
    ((cmd.extractLsb' 44 4 = 0x0#4 ∨ 5 ≤ (cmd.extractLsb' 44 4).toNat) →
      decode cmd = .error (.illegalCommand (cmd.extractLsb' 44 4)))

/-- R64: exactly the words with a reserved opcode are illegal, whatever their other bits, and they complete as the illegal
command of 60_exceptions.md R101; every other word is a command. -/
def Obligations.ExactlyReservedOpcodesAreIllegal : Prop :=
  ∀ (cmd : BitVec 48) (s : State),
    ((cmd.extractLsb' 44 4 = 0x0#4 ∨ 5 ≤ (cmd.extractLsb' 44 4).toNat) →
      decode cmd = .error (.illegalCommand (cmd.extractLsb' 44 4)) ∧
      performIssue cmd s = .next { s with
        rstat := 0xC0#8, rop := cmd.extractLsb' 44 4, rcrc := 0x00#8, rframe := 0x00000000#32 }) ∧
    ((1 ≤ (cmd.extractLsb' 44 4).toNat ∧ (cmd.extractLsb' 44 4).toNat ≤ 4) →
      ∃ i, decode cmd = .ok i ∧ performIssue cmd s = exec i s)

/-- R63: the ignored bits change nothing of what an ISSUE does, and the assembler writes them 0. -/
def Obligations.IgnoredBitsChangeNothing : Prop :=
  (∀ (r r' : BitVec 5) (ea ea' : BitVec 7) (m : BitVec 24) (x x' : BitVec 8) (s : State),
    performIssue (0x1#4 ++ r ++ ea ++ m ++ x) s = performIssue (0x1#4 ++ r' ++ ea' ++ m ++ x') s) ∧
  (∀ (r r' : BitVec 5) (ea ea' : BitVec 7) (b b' : BitVec 1) (a : BitVec 7) (d : BitVec 16) (x x' : BitVec 8) (s : State),
    performIssue (0x2#4 ++ r ++ ea ++ b ++ a ++ d ++ x) s = performIssue (0x2#4 ++ r' ++ ea' ++ b' ++ a ++ d ++ x') s) ∧
  (∀ (r r' : BitVec 5) (ea : BitVec 7) (f : BitVec 32) (s : State),
    performIssue (0x3#4 ++ r ++ ea ++ f) s = performIssue (0x3#4 ++ r' ++ ea ++ f) s ∧
    performIssue (0x4#4 ++ r ++ ea ++ f) s = performIssue (0x4#4 ++ r' ++ ea ++ f) s) ∧
  (∀ (op : BitVec 4) (r r' : BitVec 5) (rest : BitVec 39) (s : State),
    performIssue (op ++ r ++ rest) s = performIssue (op ++ r' ++ rest) s) ∧
  (∀ i : Instr, encode i &&& ~~~(usedBits i) = 0#48)

/-- Decode and encode agree: every command, with every operand at every value, decodes from its encoding, and from every
word that differs from it only in bits the command does not use. -/
def Obligations.DecodeOfEncodeIsTheCommand : Prop :=
  ∀ i : Instr, decode (encode i) = .ok i ∧
    ∀ noise : BitVec 48, decode (encode i ^^^ (noise &&& ~~~(usedBits i))) = .ok i

/-- The other direction: a word that decodes to a command is that command's encoding in every bit the command uses. -/
def Obligations.DecodedWordAgreesWithItsEncoding : Prop :=
  ∀ (cmd : BitVec 48) (i : Instr), decode cmd = .ok i → encode i = cmd &&& usedBits i

/-- R67: the worked encodings, word for word, and the commands they decode to. -/
def Obligations.WorkedEncodingsOfTheSpec : Prop :=
  assemble (.crc8 0x41002E) = .ok (.issue 0x100041002E00#48) ∧
  assemble (.build 0x41 0x002E) = .ok (.issue 0x200041002E00#48) ∧
  assemble (.validate 0xAEA0209C 0x2E) = .ok (.issue 0x302EAEA0209C#48) ∧
  assemble (.extract 0xAEA0 0x209C 0x2E) = .ok (.issue 0x402EAEA0209C#48) ∧
  assemble (.cmd 0x0) = .ok (.issue 0x000000000000#48) ∧
  decode 0x100041002E00#48 = .ok (.crc8 0x41002E#24) ∧
  decode 0x200041002E00#48 = .ok (.build 0x41#7 0x002E#16) ∧
  decode 0x302EAEA0209C#48 = .ok (.validate 0xAEA0209C#32 0x2E#7) ∧
  decode 0x402EAEA0209C#48 = .ok (.extract 0xAEA0#16 0x209C#16 0x2E#7) ∧
  decode 0x000000000000#48 = .error (.illegalCommand 0x0#4)

/-- R66, its table: each line is one transaction with the stated encoding when every operand fits its width, and is refused
by an operand's name when one does not. Two clauses are the model's own (log entry 9): that the leftmost of several
operands that do not fit is the one named (DESIGN CHOICE), and that the line READ 4 is refused (DEDUCED: R66's table ends at
3, though vector V-R3 writes READ 4). -/
def Obligations.AssemblerEncodesLinesThatFitAndRefusesTheRest : Prop :=
  (∀ m, (m < 2 ^ 24 → assemble (.crc8 m) = .ok (.issue (0x1#4 ++ 0#5 ++ 0#7 ++ BitVec.ofNat 24 m ++ 0x00#8))) ∧
    (2 ^ 24 ≤ m → assemble (.crc8 m) = .error .message)) ∧
  (∀ a d, (a < 2 ^ 7 → d < 2 ^ 16 → assemble (.build a d) =
      .ok (.issue (0x2#4 ++ 0#5 ++ 0#7 ++ 0#1 ++ BitVec.ofNat 7 a ++ BitVec.ofNat 16 d ++ 0x00#8))) ∧
    (2 ^ 7 ≤ a → assemble (.build a d) = .error .address) ∧
    (a < 2 ^ 7 → 2 ^ 16 ≤ d → assemble (.build a d) = .error .data)) ∧
  (∀ f ea, (f < 2 ^ 32 → ea < 2 ^ 7 → assemble (.validate f ea) =
      .ok (.issue (0x3#4 ++ 0#5 ++ BitVec.ofNat 7 ea ++ BitVec.ofNat 32 f))) ∧
    (2 ^ 32 ≤ f → assemble (.validate f ea) = .error .frame) ∧
    (f < 2 ^ 32 → 2 ^ 7 ≤ ea → assemble (.validate f ea) = .error .expectedAddress)) ∧
  (∀ h l ea, (h < 2 ^ 16 → l < 2 ^ 16 → ea < 2 ^ 7 → assemble (.extract h l ea) =
      .ok (.issue (0x4#4 ++ 0#5 ++ BitVec.ofNat 7 ea ++ BitVec.ofNat 16 h ++ BitVec.ofNat 16 l))) ∧
    (2 ^ 16 ≤ h → assemble (.extract h l ea) = .error .msbWord) ∧
    (h < 2 ^ 16 → 2 ^ 16 ≤ l → assemble (.extract h l ea) = .error .lsbWord) ∧
    (h < 2 ^ 16 → l < 2 ^ 16 → 2 ^ 7 ≤ ea → assemble (.extract h l ea) = .error .expectedAddress)) ∧
  (∀ w, (w < 2 ^ 48 → assemble (.cmd w) = .ok (.issue (BitVec.ofNat 48 w))) ∧
    (2 ^ 48 ≤ w → assemble (.cmd w) = .error .commandWord)) ∧
  (∀ n, (n ≤ 3 → assemble (.read n) = .ok (.read n)) ∧ (4 ≤ n → assemble (.read n) = .error .register)) ∧
  assemble .reset = .ok .reset

/-! ### What each command does -/

/-- 40_crc.md R76, whole: CRC8 completes from every state, changes only the latch, reads its message from PL[31:8] of any
word with OP = 0x1, and has the rule's corner cases and example. -/
def Obligations.Crc8CommandResult : Prop :=
  (∀ (m : BitVec 24) (s : State),
    exec (.crc8 m) s = .next { s with rstat := 0x80#8, rop := 0x1#4, rcrc := crc8 m, rframe := m ++ crc8 m }) ∧
  (∀ (r : BitVec 5) (ea : BitVec 7) (m : BitVec 24) (x : BitVec 8) (s : State),
    performIssue (0x1#4 ++ r ++ ea ++ m ++ x) s = exec (.crc8 m) s) ∧
  (crc8 0x000000#24 = 0x00#8 ∧ crc8 0xFFFFFF#24 = 0x0F#8 ∧
    ∀ k, k < 24 → crcBasis[k]? = some (crc8 (1#24 <<< k))) ∧
  (∀ s : State, performIssue 0x100041002E00#48 s =
    .next { s with rstat := 0x80#8, rop := 0x1#4, rcrc := 0x27#8, rframe := 0x41002E27#32 })

/-- 41_frame.md R80, whole: BUILD completes from every state, changes only the latch, takes its operands from PL[30:24] and
PL[23:8] of any word with OP = 0x2, and has the rule's corner cases and example. -/
def Obligations.BuildCommandResult : Prop :=
  (∀ (a : BitVec 7) (d : BitVec 16) (s : State),
    exec (.build a d) s = .next { s with
      rstat := 0x80#8
      rop := 0x2#4
      rcrc := crc8 (0#1 ++ a ++ d)
      rframe := 0#1 ++ a ++ d ++ crc8 (0#1 ++ a ++ d) }) ∧
  (∀ (r : BitVec 5) (ea : BitVec 7) (b : BitVec 1) (a : BitVec 7) (d : BitVec 16) (x : BitVec 8) (s : State),
    performIssue (0x2#4 ++ r ++ ea ++ b ++ a ++ d ++ x) s = exec (.build a d) s) ∧
  (∀ (a : BitVec 7) (d : BitVec 16) (s t : State), exec (.build a d) s = .next t →
    t.rfcrc = crc8 (t.rframe.extractLsb' 8 24) ∧ rem32 t.rframe = 0x00#8) ∧
  (∀ s : State,
    (∃ t, exec (.build 0x00#7 0x0000#16) s = .next t ∧ t.rframe = 0x00000000#32) ∧
    (∃ t, exec (.build 0x7F#7 0xFFFF#16) s = .next t ∧ t.rframe = 0x7FFFFF04#32) ∧
    (∃ t, performIssue 0x200041002E00#48 s = .next t ∧ t.rframe = 0x41002E27#32 ∧ t.rmsbw = 0x4100#16 ∧
      t.rlsbw = 0x2E27#16 ∧ t.rcrc = 0x27#8 ∧ t.rstat = 0x80#8))

/-- R81: bit 31 of the frame an ISSUE of BUILD leaves is 0 for every word, PL[31] set or not, and the CRC covers it. -/
def Obligations.BuiltFrameStatusBitIsZero : Prop :=
  ∀ (cmd : BitVec 48) (s t : State), cmd.extractLsb' 44 4 = 0x2#4 → performIssue cmd s = .next t →
    t.rframe.getLsbD 31 = false ∧ t.rcrc = crc8 (0#1 ++ t.rframe.extractLsb' 8 23) ∧
    performIssue (cmd ^^^ 0x000080000000#48) s = .next t

/-- R82, whole: VALIDATE completes from every state, changes only the latch, takes its operands from PL and EA of any word
with OP = 0x3, and has the rule's corner cases and example. -/
def Obligations.ValidateCommandResult : Prop :=
  (∀ (f : BitVec 32) (ea : BitVec 7) (s : State),
    exec (.validate f ea) s = .next { s with
      rstat :=
        let sts := f.extractLsb' 31 1
        let adr := BitVec.ofBool (f.extractLsb' 24 7 == ea)
        let crc := BitVec.ofBool (f.extractLsb' 0 8 == crc8 (f.extractLsb' 8 24))
        0b10#2 ++ (sts &&& adr &&& crc) ++ sts ++ adr ++ crc ++ 0b00#2
      rop := 0x3#4
      rcrc := crc8 (f.extractLsb' 8 24)
      rframe := f }) ∧
  (∀ (r : BitVec 5) (ea : BitVec 7) (f : BitVec 32) (s : State),
    performIssue (0x3#4 ++ r ++ ea ++ f) s = exec (.validate f ea) s) ∧
  (∀ s : State,
    (∃ t, exec (.validate 0x00000000#32 0x00#7) s = .next t ∧ t.rstat = 0x8C#8) ∧
    (∃ t, exec (.validate 0x8000000B#32 0x00#7) s = .next t ∧ t.rstat = 0xBC#8) ∧
    (∃ t, performIssue 0x302EAEA0209C#48 s = .next t ∧ t.rstat = 0xBC#8 ∧ t.rcrc = 0x9C#8 ∧ t.raddr = 0x2E#7 ∧
      t.rdata = 0xA020#16))

/-- R86, whole: EXTRACT completes from every state, changes only the latch, takes its words from PL and its expected address
from EA of any word with OP = 0x4, and has the rule's example. -/
def Obligations.ExtractCommandResult : Prop :=
  (∀ (h l : BitVec 16) (ea : BitVec 7) (s : State),
    exec (.extract h l ea) s = .next { s with
      rstat :=
        let sts := h.extractLsb' 15 1
        let adr := BitVec.ofBool (h.extractLsb' 8 7 == ea)
        let crc := BitVec.ofBool (l.extractLsb' 0 8 == crc8 (h ++ l.extractLsb' 8 8))
        0b10#2 ++ (sts &&& adr &&& crc) ++ sts ++ adr ++ crc ++ 0b00#2
      rop := 0x4#4
      rcrc := crc8 (h ++ l.extractLsb' 8 8)
      rframe := h ++ l }) ∧
  (∀ (r : BitVec 5) (ea : BitVec 7) (h l : BitVec 16) (s : State),
    performIssue (0x4#4 ++ r ++ ea ++ h ++ l) s = exec (.extract h l ea) s) ∧
  (∀ s : State,
    (∃ t, performIssue 0x402EAEA0209C#48 s = .next t ∧ t.rstat = 0xBC#8 ∧ t.rdata = 0xA020#16 ∧
      t.rframe = 0xAEA0209C#32) ∧
    (∃ t, performIssue 0x402E209CAEA0#48 s = .next t ∧ validFlag t.rstat = false))

/-- R83, R84 and R85: each check of VALIDATE and EXTRACT by itself. The status bit never affects ADDR_OK; the recomputed CRC
goes to RCRC; the check by `rem32` is the same. -/
def Obligations.FrameChecksAreIndependentFlags : Prop :=
  ∀ (f : BitVec 32) (ea : BitVec 7) (i : Instr) (s : State),
    (i = .validate f ea ∨ i = .extract (f.extractLsb' 16 16) (f.extractLsb' 0 16) ea) →
    ∃ t, exec i s = .next t ∧
      stsOkFlag t.rstat = f.getLsbD 31 ∧
      addrOkFlag t.rstat = (f.extractLsb' 24 7 == ea) ∧
      crcOkFlag t.rstat = (f.extractLsb' 0 8 == crc8 (f.extractLsb' 8 24)) ∧
      crcOkFlag t.rstat = (rem32 f == 0x00#8) ∧
      t.rcrc = crc8 (f.extractLsb' 8 24) ∧
      ∃ u, exec (.validate (f ^^^ 0x80000000#32) ea) s = .next u ∧ addrOkFlag u.rstat = addrOkFlag t.rstat

/-- R87: EXTRACT and VALIDATE leave the same RSTAT, RCRC and RFRAME on the same frame, and ROP 0x4 against 0x3. -/
def Obligations.ExtractMatchesValidateOnTheSameFrame : Prop :=
  ∀ (h l : BitVec 16) (ea : BitVec 7) (s : State), ∃ t u,
    exec (.extract h l ea) s = .next t ∧ exec (.validate (h ++ l) ea) s = .next u ∧
    t.rstat = u.rstat ∧ t.rcrc = u.rcrc ∧ t.rframe = u.rframe ∧ t.rop = 0x4#4 ∧ u.rop = 0x3#4

/-- R88: a write frame never validates (RSTAT = 0x8C); the response frame, which CRC8 of its bytes 0 to 2 makes, always
validates, for every address and data. -/
def Obligations.WriteFrameNeverValidatesResponseFrameAlwaysDoes : Prop :=
  ∀ (a : BitVec 7) (d : BitVec 16) (s : State),
    (∃ t u, exec (.build a d) s = .next t ∧ exec (.validate t.rframe a) t = .next u ∧
      u.rstat = 0x8C#8 ∧ stsOkFlag u.rstat = false ∧ addrOkFlag u.rstat = true ∧ crcOkFlag u.rstat = true ∧
      validFlag u.rstat = false) ∧
    (∃ t u, exec (.crc8 (1#1 ++ a ++ d)) s = .next t ∧ t.rframe = (1#1 ++ a ++ d) ++ crc8 (1#1 ++ a ++ d) ∧
      exec (.validate t.rframe a) t = .next u ∧ u.rstat = 0xBC#8 ∧ validFlag u.rstat = true)

/-- R89: a VALIDATE or EXTRACT leaves the received frame's fields in the views, valid or not. -/
def Obligations.ReceivedFieldsAreKeptWhetherValidOrNot : Prop :=
  ∀ (f : BitVec 32) (ea : BitVec 7) (i : Instr) (s : State),
    (i = .validate f ea ∨ i = .extract (f.extractLsb' 16 16) (f.extractLsb' 0 16) ea) →
    ∃ t, exec i s = .next t ∧ t.rframe = f ∧ t.rsts = f.getLsbD 31 ∧ t.raddr = f.extractLsb' 24 7 ∧
      t.rdata = f.extractLsb' 8 16 ∧ t.rfcrc = f.extractLsb' 0 8

/-- 60_exceptions.md R101: an ISSUE of a reserved opcode completes with RSTAT = 0xC0, the opcode in ROP, RCRC and RFRAME zero
and nothing else changed, for every value of the other bits; the next legal command clears ILL; and the rule's example. -/
def Obligations.IllegalCommandResult : Prop :=
  (∀ (op : BitVec 4) (rest : BitVec 44) (s : State), (op = 0x0#4 ∨ 5 ≤ op.toNat) →
    performIssue (op ++ rest) s =
      .next { s with rstat := 0xC0#8, rop := op, rcrc := 0x00#8, rframe := 0x00000000#32 }) ∧
  (∀ (i : Instr) (s t : State), exec i s = .next t → illFlag t.rstat = false) ∧
  (∀ s : State, performIssue 0x5012DEADBEEF#48 s =
    .next { s with rstat := 0xC0#8, rop := 0x5#4, rcrc := 0x00#8, rframe := 0x00000000#32 })

/-- 10_state.md R38: the flag table. Every command word, from every state, leaves its row of the table in the latch and
changes nothing else. -/
def Obligations.EveryCommandLeavesItsRowOfTheFlagTable : Prop :=
  ∀ (cmd : BitVec 48) (s : State), performIssue cmd s = .next (withRow (latchRow cmd) s)

/-- R22: the result of a command is a function of its command word alone, whatever came before. -/
def Obligations.CommandResultIgnoresTheLatch : Prop :=
  ∀ (cmd : BitVec 48) (s s' : State), ∃ t t',
    performIssue cmd s = .next t ∧ performIssue cmd s' = .next t' ∧
    t.rstat = t'.rstat ∧ t.rop = t'.rop ∧ t.rcrc = t'.rcrc ∧ t.rframe = t'.rframe ∧ hasFlag t.rstat = true

/-! ### Flags, reset and the host's transactions -/

/-- R25: HAS is 0 after reset, every command sets it, only a RESET clears it, and while it is 0 ROP, RCRC and RFRAME cannot
be read. -/
def Obligations.HasFlagIsSetByCommandsAndClearedOnlyByReset : Prop :=
  hasFlag State.reset.rstat = false ∧
  (∀ (s t : State), performReset s = .next t → hasFlag t.rstat = false) ∧
  (∀ (cmd : BitVec 48) (s : State), ∃ t, performIssue cmd s = .next t ∧ hasFlag t.rstat = true) ∧
  (∀ (s t : State), step s = .next t → hasFlag s.rstat = true → hasFlag t.rstat = false →
    s.pending.head? = some .reset) ∧
  (∀ s : State, hasFlag s.rstat = false →
    performRead 1 s = .fault (.readBeforeResult .rop) ∧ performRead 2 s = .fault (.readBeforeResult .rcrc) ∧
    performRead 3 s = .fault (.readBeforeResult .rframe))

/-- R26: every command writes ILL, 1 exactly for a reserved opcode; it changes at nothing but the next command or a
reset. -/
def Obligations.IllFlagReportsTheLastCommand : Prop :=
  (∀ (cmd : BitVec 48) (s : State), ∃ t, performIssue cmd s = .next t ∧
    (illFlag t.rstat = true ↔ (cmd.extractLsb' 44 4 = 0x0#4 ∨ 5 ≤ (cmd.extractLsb' 44 4).toNat))) ∧
  (∀ (s t : State), performReset s = .next t → illFlag t.rstat = false) ∧
  (∀ (s t : State), step s = .next t → illFlag t.rstat ≠ illFlag s.rstat →
    (∃ cmd, s.pending.head? = some (.issue cmd)) ∨ s.pending.head? = some .reset)

/-- R27 to R30: every command writes the four check flags; VALIDATE and EXTRACT as computed, every other command 0. -/
def Obligations.CheckFlagsReportTheLastCommand : Prop :=
  ∀ (cmd : BitVec 48) (s : State), ∃ t, performIssue cmd s = .next t ∧
    ((cmd.extractLsb' 44 4 = 0x3#4 ∨ cmd.extractLsb' 44 4 = 0x4#4) →
      stsOkFlag t.rstat = cmd.getLsbD 31 ∧
      addrOkFlag t.rstat = (cmd.extractLsb' 24 7 == cmd.extractLsb' 32 7) ∧
      crcOkFlag t.rstat = (cmd.extractLsb' 0 8 == crc8 (cmd.extractLsb' 8 24)) ∧
      validFlag t.rstat = (stsOkFlag t.rstat && addrOkFlag t.rstat && crcOkFlag t.rstat)) ∧
    (¬(cmd.extractLsb' 44 4 = 0x3#4 ∨ cmd.extractLsb' 44 4 = 0x4#4) →
      validFlag t.rstat = false ∧ stsOkFlag t.rstat = false ∧ addrOkFlag t.rstat = false ∧ crcOkFlag t.rstat = false)

/-- R31: RSTAT[1:0] reads 0 in every state, after reset too. -/
def Obligations.ReservedStatusBitsReadZero : Prop :=
  ∀ s : State, ∃ v : BitVec 8,
    performRead 0 s = .next { s with replies := s.replies ++ [.rstat v] } ∧ v.extractLsb' 0 2 = 0#2 ∧
    v.extractLsb' 2 6 = s.rstat.extractLsb' 2 6

/-- 60_exceptions.md R110 (and 20_memory.md R51): a READ within the contract gives the register's whole value at its width
and changes nothing of the codec; RSTAT may be read at any time. -/
def Obligations.ReadReturnsTheWholeRegister : Prop :=
  ∀ s : State,
    performRead 0 s = .next { s with replies := s.replies ++ [.rstat (s.rstat &&& 0xFC#8)] } ∧
    (hasFlag s.rstat = true →
      performRead 1 s = .next { s with replies := s.replies ++ [.rop s.rop] } ∧
      performRead 2 s = .next { s with replies := s.replies ++ [.rcrc s.rcrc] } ∧
      performRead 3 s = .next { s with replies := s.replies ++ [.rframe s.rframe] })

/-- R111: the two host-contract violations, and no other READ faults. -/
def Obligations.ReadFaultsExactlyOnContractViolations : Prop :=
  ∀ (n : Nat) (s : State) (e : Fault),
    performRead n s = .fault e ↔
      ((4 ≤ n ∧ e = .badRegister n) ∨
       (hasFlag s.rstat = false ∧
        ((n = 1 ∧ e = .readBeforeResult .rop) ∨ (n = 2 ∧ e = .readBeforeResult .rcrc) ∨
         (n = 3 ∧ e = .readBeforeResult .rframe))))

/-- R51: a READ that answers leaves everything but the host's replies as it was and, repeated, returns the same value; the
latch changes at nothing but an ISSUE or a RESET; and an ISSUE changes nothing but the latch. -/
def Obligations.ReadHasNoSideEffectAndIssueWritesOnlyTheLatch : Prop :=
  (∀ (n : Nat) (s t : State), performRead n s = .next t → ∃ v u,
    t = { s with replies := s.replies ++ [v] } ∧ performRead n t = .next u ∧ u.replies = t.replies ++ [v]) ∧
  (∀ s t : State, step s = .next t →
    (t.rstat ≠ s.rstat ∨ t.rop ≠ s.rop ∨ t.rcrc ≠ s.rcrc ∨ t.rframe ≠ s.rframe) →
    (∃ cmd, s.pending.head? = some (.issue cmd)) ∨ s.pending.head? = some .reset) ∧
  (∀ (cmd : BitVec 48) (s : State), ∃ t, performIssue cmd s = .next t ∧
    t.pending = s.pending ∧ t.position = s.position ∧ t.replies = s.replies ∧ t.resetCount = s.resetCount)

/-- 10_state.md R35: the views are the slices of RFRAME the rule names, and together they are RFRAME (20_memory.md R42 to
R44). -/
def Obligations.ViewsAreSlicesOfTheFrame : Prop :=
  ∀ s : State,
    s.rsts = s.rframe.getLsbD 31 ∧ s.raddr = s.rframe.extractLsb' 24 7 ∧ s.rdata = s.rframe.extractLsb' 8 16 ∧
    s.rfcrc = s.rframe.extractLsb' 0 8 ∧ s.rmsbw = s.rframe.extractLsb' 16 16 ∧ s.rlsbw = s.rframe.extractLsb' 0 16 ∧
    s.rbyte 0 = s.rframe.extractLsb' 24 8 ∧ s.rbyte 1 = s.rframe.extractLsb' 16 8 ∧
    s.rbyte 2 = s.rframe.extractLsb' 8 8 ∧ s.rbyte 3 = s.rframe.extractLsb' 0 8 ∧
    s.rframe = s.rbyte 0 ++ s.rbyte 1 ++ s.rbyte 2 ++ s.rbyte 3 ∧ s.rframe = s.rmsbw ++ s.rlsbw ∧
    s.rframe = BitVec.ofBool s.rsts ++ s.raddr ++ s.rdata ++ s.rfcrc

/-- 10_state.md R37: RSTAT is 0x00 at reset, and ROP, RCRC and RFRAME cannot be read. -/
def Obligations.ResetValuesOfTheLatch : Prop :=
  State.reset.rstat = 0x00#8 ∧
  performRead 1 State.reset = .fault (.readBeforeResult .rop) ∧
  performRead 2 State.reset = .fault (.readBeforeResult .rcrc) ∧
  performRead 3 State.reset = .fault (.readBeforeResult .rframe)

/-- 70_reset_and_hazards.md R115: RESET completes from every state with RSTAT = 0x00, touches nothing of the host's side, and
ROP, RCRC and RFRAME cannot be read until the next ISSUE, after which they can. -/
def Obligations.ResetEmptiesTheLatch : Prop :=
  ∀ s : State, ∃ t, performReset s = .next t ∧ t.rstat = 0x00#8 ∧
    t.pending = s.pending ∧ t.position = s.position ∧ t.replies = s.replies ∧
    performRead 1 t = .fault (.readBeforeResult .rop) ∧ performRead 2 t = .fault (.readBeforeResult .rcrc) ∧
    performRead 3 t = .fault (.readBeforeResult .rframe) ∧
    ∀ (cmd : BitVec 48), ∃ u, performIssue cmd t = .next u ∧ ∀ n, n < 4 → ∃ v, performRead n u = .next v

/-- One step performs the host's next transaction, with the host moved past it; with none pending it changes nothing (the
model's choice, log entry 4). -/
def Obligations.StepPerformsTheNextTransaction : Prop :=
  ∀ s : State,
    (s.pending = [] → step s = .next s) ∧
    (∀ t ts, s.pending = t :: ts → step s = perform t { s with pending := ts, position := s.position + 1 })

/-- One step at an ISSUE whose word decodes to a command runs that command's meaning, with the host moved past it; a word of
a reserved opcode runs the illegal command. -/
def Obligations.StepRunsTheDecodedCommand : Prop :=
  ∀ (s : State) (cmd : BitVec 48) (ts : List Transaction), s.pending = .issue cmd :: ts →
    (∀ i, decode cmd = .ok i → step s = exec i { s with pending := ts, position := s.position + 1 }) ∧
    (∀ op, decode cmd = .error (.illegalCommand op) →
      step s = .next { s with
        rstat := 0xC0#8, rop := op, rcrc := 0x00#8, rframe := 0x00000000#32, pending := ts, position := s.position + 1 })

/-- No step refuses, and a step faults exactly when the host's next transaction is a READ that breaks the contract: an ISSUE
and a RESET always complete (60_exceptions.md R100, R107, R111). -/
def Obligations.StepStopsOnlyOnAContractViolation : Prop :=
  ∀ s : State,
    (∀ r, step s ≠ .refused r) ∧
    (∀ e, step s = .fault e ↔ ∃ n, s.pending.head? = some (.read n) ∧
      ((4 ≤ n ∧ e = .badRegister n) ∨
       (hasFlag s.rstat = false ∧
        ((n = 1 ∧ e = .readBeforeResult .rop) ∨ (n = 2 ∧ e = .readBeforeResult .rcrc) ∨
         (n = 3 ∧ e = .readBeforeResult .rframe)))))

/-- 70_reset_and_hazards.md R124: a READ in the transaction right after an ISSUE returns that ISSUE's results, whatever the
register. -/
def Obligations.ReadRightAfterIssueReturnsItsResult : Prop :=
  ∀ (s : State) (cmd : BitVec 48) (n : Nat) (ts : List Transaction), n < 4 →
    s.pending = .issue cmd :: .read n :: ts →
    ∃ t u, step s = .next t ∧ step t = .next u ∧ u.replies = s.replies ++ [replyAfter (some cmd) n] ∧ u.pending = ts

/-- 20_memory.md R53 and 60_exceptions.md R107: any sequence of transactions that keeps the READ contract is performed to its
end, one transaction a step, and the values its READs return are those of the latest ISSUE before each, as a host that
knows the flag table and nothing else of the codec would predict. -/
def Obligations.ContractKeepingSequenceCompletesWithThePredictedReplies : Prop :=
  ∀ (ts : List Transaction) (last : Option (BitVec 48)) (s : State),
    s.pending = ts → LatchHolds last s → contractHolds last.isSome ts = true →
    ∃ t, Host.Core.run core ts.length s = .next t ∧ t.pending = [] ∧ t.position = s.position + ts.length ∧
      t.replies = s.replies ++ repliesOf last ts

/-- 93_implementation_defined.md U3 with R37 and R111: what ROP, RCRC and RFRAME hold while HAS = 0 is never observed. Two
states that agree on RSTAT and the host's side, and on the other registers if HAS = 1, show the same through every run. -/
def Obligations.UnspecifiedContentsAreNeverObserved : Prop :=
  ∀ (k : Nat) (s s' : State), s.rstat = s'.rstat → s.pending = s'.pending → s.replies = s'.replies →
    (hasFlag s.rstat = true → s.rop = s'.rop ∧ s.rcrc = s'.rcrc ∧ s.rframe = s'.rframe) →
    visible (Host.Core.run core k s) = visible (Host.Core.run core k s')

/-- 70_reset_and_hazards.md R116: power-on and RESET are the same. Whatever the state a RESET is performed in, RSTAT is
power-on's, and every sequence of transactions after it shows what it shows from power-on. -/
def Obligations.PowerOnAndResetAreTheSame : Prop :=
  ∀ s : State, ∃ t, performReset s = .next t ∧ t.rstat = 0x00#8 ∧ State.reset.rstat = 0x00#8 ∧
    ∀ (k : Nat) (ts : List Transaction),
      visible (Host.Core.run core k { t with pending := ts, replies := [] }) =
        visible (Host.Core.run core k { State.reset with pending := ts })

/-- The latch invariant at power-on. -/
def Obligations.LatchInvariantHoldsAtReset : Prop := LatchInv State.reset

/-- Every step keeps the latch invariant, from every state that has it. -/
def Obligations.StepKeepsTheLatchInvariant : Prop :=
  ∀ s t : State, LatchInv s → step s = .next t → LatchInv t

/-! ### What the host concludes -/

/-- 60_exceptions.md R102, R105(d), R112: after the EXTRACT of a register read the host's outcome is the frame's data when
all three checks pass and CrcFailure otherwise; TransportFailure is the outcome of a frame never received, for which nothing
is issued (R105(d)), and of nothing else. The clause that fixes the transactions of a received frame as EXTRACT, READ 0,
READ 3 is the model's choice (log entry 10: the shortest sequence that R112 needs), and that the Transport Adapter appears
as a `Reception` is its deduction (log entry 10). -/
def Obligations.ReadOutcomeFollowsTheFrameChecks : Prop :=
  (∀ (h l : BitVec 16) (target : BitVec 7) (s : State), ∃ t,
    performIssue (encode (.extract h l target)) s = .next t ∧
    readTransactions target (.words h l) = [.issue (encode (.extract h l target)), .read 0, .read 3] ∧
    ((h.getLsbD 15 = true ∧ h.extractLsb' 8 7 = target ∧ l.extractLsb' 0 8 = crc8 (h ++ l.extractLsb' 8 8)) →
      readOutcome (.words h l) t.rstat t.rframe = .ok (h.extractLsb' 0 8 ++ l.extractLsb' 8 8)) ∧
    (¬(h.getLsbD 15 = true ∧ h.extractLsb' 8 7 = target ∧ l.extractLsb' 0 8 = crc8 (h ++ l.extractLsb' 8 8)) →
      readOutcome (.words h l) t.rstat t.rframe = .error .crcFailure)) ∧
  (∀ (r : Reception) (target : BitVec 7) (v : BitVec 8) (f : BitVec 32),
    (readOutcome r v f = .error .transportFailure ↔ r = .abandoned) ∧
    readTransactions target .abandoned = [])

/-- R112 and D22: a write followed by a read-back whose answer is the response frame of what was written succeeds; one whose
answer is a valid frame with other data is WrongDataWritten; a read-back that failed keeps its own kind. -/
def Obligations.WriteWithValidateOutcomes : Prop :=
  ∀ (a : BitVec 7) (d d' : BitVec 16) (s : State), ∃ t u,
    performIssue (encode (.build a d)) s = .next t ∧
    transmitWords t.rframe = [0#1 ++ a ++ d.extractLsb' 8 8, d.extractLsb' 0 8 ++ crc8 (0#1 ++ a ++ d)] ∧
    performIssue (encode (.extract (1#1 ++ a ++ d'.extractLsb' 8 8) (d'.extractLsb' 0 8 ++ crc8 (1#1 ++ a ++ d')) a)) t
      = .next u ∧
    (∀ h l, writeWithValidateOutcome d (readOutcome (.words h l) u.rstat u.rframe) =
      if d' = d then .ok () else .error .wrongDataWritten) ∧
    (∀ k, writeWithValidateOutcome d (.error k) = .error k)

/-- 70_reset_and_hazards.md R121, its example: the words of two different valid frames, mixed, are accepted. -/
def Obligations.MixedFrameOfTheSpecIsAccepted : Prop :=
  ∀ s : State,
    (∃ t, exec (.validate 0xAEA0209C#32 0x2E#7) s = .next t ∧ validFlag t.rstat = true) ∧
    (∃ t, exec (.validate 0x806A219B#32 0x00#7) s = .next t ∧ validFlag t.rstat = true) ∧
    (∃ t, exec (.extract 0xAEA0#16 0x219B#16 0x2E#7) s = .next t ∧ validFlag t.rstat = true ∧
      t.rframe = 0xAEA0219B#32 ∧ t.rdata = 0xA021#16)

/-- 70_reset_and_hazards.md R120: in every state with the latch invariant, VALID = 1 means the last command was a legal
VALIDATE or EXTRACT and RFRAME is a frame that passed: its status bit is set and its CRC is right. -/
def Obligations.ValidFlagVouchesForTheFrame : Prop :=
  ∀ s : State, LatchInv s → validFlag s.rstat = true →
    hasFlag s.rstat = true ∧ illFlag s.rstat = false ∧ (s.rop = 0x3#4 ∨ s.rop = 0x4#4) ∧
    s.rsts = true ∧ s.rfcrc = crc8 (s.rframe.extractLsb' 8 24)

/-- R66, the lines of a text: what follows a `;` in a line does not matter, and a line that cannot be taken is refused by
its number and the reason. The statement is about a list of lines numbered from any `n` (`assembleLines`; a whole text is
numbered from 1). The model's choices (log entry 9): every line counts in the numbering, one that holds a comment alone
too; the first refused line alone is reported; and how letters and white space are read within a line. -/
def Obligations.AssemblerTextCommentsAndRefusalByLineNumber : Prop :=
  (∀ body comment : List Char, ';' ∉ body → assembleLine (body ++ ';' :: comment) = assembleLine body) ∧
  (∀ (n : Nat) (good rest : List (List Char)) (bad : List Char) (e : LineError),
    (∀ l ∈ good, ∃ t, assembleLine l = .ok t) → assembleLine bad = .error e →
    assembleLines n (good ++ bad :: rest) = .error (n + good.length, e))
end

