-- ==== Sys2Proof/Laws/Crc.lean ====
section
/-! SUPPORT. One step of the CRC loop: it is linear, it clears the bit it tests, and it keeps the bits above. -/

namespace Sys2Proof.Machine

open Sys2Proof

theorem crcStep_xor (a b : BitVec 32) (i : Nat) : crcStep (a ^^^ b) i = crcStep a i ^^^ crcStep b i := by
  unfold crcStep
  generalize crcGenerator <<< (i - 8) = g
  have cancel : a ^^^ b = a ^^^ g ^^^ (b ^^^ g) := by
    rw [show a ^^^ g ^^^ (b ^^^ g) = a ^^^ b ^^^ (g ^^^ g) by ac_rfl, BitVec.xor_self, BitVec.xor_zero]
  simp only [BitVec.getLsbD_xor]
  cases a.getLsbD i <;> cases b.getLsbD i <;> simp
  · ac_rfl
  · ac_rfl
  · exact cancel

theorem crcStep_zero (i : Nat) : crcStep 0#32 i = 0#32 := by simp [crcStep]

theorem crcLoop_succ (n : Nat) (acc : BitVec 32) : crcLoop (n + 1) acc = crcLoop n (crcStep acc (n + 8)) := rfl

end Sys2Proof.Machine
end

