-- ==== Sys2Proof/Laws/Decode.lean ====
section
/-! SUPPORT. The fields of a command word put together from fields, and what the decoder does at each opcode. -/

namespace Sys2Proof

theorem opField_commandWord (op : Opcode) (ea : Address) (pl : Frame) : opField (commandWord op ea pl) = op := by
  unfold opField commandWord
  ext i hi
  simp [BitVec.getElem_extractLsb']
  grind

theorem rsvField_commandWord (op : Opcode) (ea : Address) (pl : Frame) : rsvField (commandWord op ea pl) = 0#5 := by
  unfold rsvField commandWord
  ext i hi
  simp [BitVec.getElem_extractLsb']
  grind

theorem eaField_commandWord (op : Opcode) (ea : Address) (pl : Frame) : eaField (commandWord op ea pl) = ea := by
  unfold eaField commandWord
  ext i hi
  simp [BitVec.getElem_extractLsb']
  grind

theorem plField_commandWord (op : Opcode) (ea : Address) (pl : Frame) : plField (commandWord op ea pl) = pl := by
  unfold plField commandWord
  ext i hi
  simp [BitVec.getElem_extractLsb']
  grind

/-- Everything the decoder can answer. -/
theorem decode_cases (cmd : Command) :
    (opField cmd = 0x1#4 ∧ decode cmd = .ok (.crc8 ((plField cmd).extractLsb' 8 24))) ∨
    (opField cmd = 0x2#4 ∧
      decode cmd = .ok (.build ((plField cmd).extractLsb' 24 7) ((plField cmd).extractLsb' 8 16))) ∨
    (opField cmd = 0x3#4 ∧ decode cmd = .ok (.validate (plField cmd) (eaField cmd))) ∨
    (opField cmd = 0x4#4 ∧ decode cmd =
      .ok (.extract ((plField cmd).extractLsb' 16 16) ((plField cmd).extractLsb' 0 16) (eaField cmd))) ∨
    ((opField cmd ≠ 0x1#4 ∧ opField cmd ≠ 0x2#4 ∧ opField cmd ≠ 0x3#4 ∧ opField cmd ≠ 0x4#4) ∧
      decode cmd = .error (.illegalCommand (opField cmd))) := by
  unfold decode
  by_cases h1 : opField cmd = 0x1#4
  · simp [h1]
  by_cases h2 : opField cmd = 0x2#4
  · simp [h2]
  by_cases h3 : opField cmd = 0x3#4
  · simp [h3]
  by_cases h4 : opField cmd = 0x4#4
  · simp [h4]
  simp [h1, h2, h3, h4]

end Sys2Proof
end

