-- ==== Sys2Proof/Laws/State.lean ====
section
/-! SUPPORT. What each update of the state leaves in each field. -/

namespace Sys2Proof.Machine

open Sys2Proof

@[simp] theorem writeLatch_rstat (a : BitVec 8) (b : Opcode) (c : Byte) (d : Frame) (s : State) : (writeLatch a b c d s).rstat = a := rfl
@[simp] theorem writeLatch_rop (a : BitVec 8) (b : Opcode) (c : Byte) (d : Frame) (s : State) : (writeLatch a b c d s).rop = b := rfl
@[simp] theorem writeLatch_rcrc (a : BitVec 8) (b : Opcode) (c : Byte) (d : Frame) (s : State) : (writeLatch a b c d s).rcrc = c := rfl
@[simp] theorem writeLatch_rframe (a : BitVec 8) (b : Opcode) (c : Byte) (d : Frame) (s : State) : (writeLatch a b c d s).rframe = d := rfl
@[simp] theorem writeLatch_pending (a : BitVec 8) (b : Opcode) (c : Byte) (d : Frame) (s : State) : (writeLatch a b c d s).pending = s.pending := rfl
@[simp] theorem writeLatch_position (a : BitVec 8) (b : Opcode) (c : Byte) (d : Frame) (s : State) : (writeLatch a b c d s).position = s.position := rfl
@[simp] theorem writeLatch_replies (a : BitVec 8) (b : Opcode) (c : Byte) (d : Frame) (s : State) : (writeLatch a b c d s).replies = s.replies := rfl
@[simp] theorem writeLatch_resetCount (a : BitVec 8) (b : Opcode) (c : Byte) (d : Frame) (s : State) : (writeLatch a b c d s).resetCount = s.resetCount := rfl

@[simp] theorem resetLatch_rstat (s : State) : (resetLatch s).rstat = 0x00#8 := rfl
@[simp] theorem resetLatch_rop (s : State) : (resetLatch s).rop = Config.unspecifiedRop (s.resetCount + 1) := rfl
@[simp] theorem resetLatch_rcrc (s : State) : (resetLatch s).rcrc = Config.unspecifiedRcrc (s.resetCount + 1) := rfl
@[simp] theorem resetLatch_rframe (s : State) : (resetLatch s).rframe = Config.unspecifiedRframe (s.resetCount + 1) := rfl
@[simp] theorem resetLatch_pending (s : State) : (resetLatch s).pending = s.pending := rfl
@[simp] theorem resetLatch_position (s : State) : (resetLatch s).position = s.position := rfl
@[simp] theorem resetLatch_replies (s : State) : (resetLatch s).replies = s.replies := rfl
@[simp] theorem resetLatch_resetCount (s : State) : (resetLatch s).resetCount = s.resetCount + 1 := rfl

@[simp] theorem giveReply_rstat (v : Reply) (s : State) : (giveReply v s).rstat = s.rstat := rfl
@[simp] theorem giveReply_rop (v : Reply) (s : State) : (giveReply v s).rop = s.rop := rfl
@[simp] theorem giveReply_rcrc (v : Reply) (s : State) : (giveReply v s).rcrc = s.rcrc := rfl
@[simp] theorem giveReply_rframe (v : Reply) (s : State) : (giveReply v s).rframe = s.rframe := rfl
@[simp] theorem giveReply_pending (v : Reply) (s : State) : (giveReply v s).pending = s.pending := rfl
@[simp] theorem giveReply_position (v : Reply) (s : State) : (giveReply v s).position = s.position := rfl
@[simp] theorem giveReply_replies (v : Reply) (s : State) : (giveReply v s).replies = s.replies ++ [v] := rfl
@[simp] theorem giveReply_resetCount (v : Reply) (s : State) : (giveReply v s).resetCount = s.resetCount := rfl

@[simp] theorem advance_rstat (s : State) : (advance s).rstat = s.rstat := rfl
@[simp] theorem advance_rop (s : State) : (advance s).rop = s.rop := rfl
@[simp] theorem advance_rcrc (s : State) : (advance s).rcrc = s.rcrc := rfl
@[simp] theorem advance_rframe (s : State) : (advance s).rframe = s.rframe := rfl
@[simp] theorem advance_pending (s : State) : (advance s).pending = s.pending.tail := rfl
@[simp] theorem advance_position (s : State) : (advance s).position = s.position + 1 := rfl
@[simp] theorem advance_replies (s : State) : (advance s).replies = s.replies := rfl
@[simp] theorem advance_resetCount (s : State) : (advance s).resetCount = s.resetCount := rfl

@[simp] theorem issueNext_rstat (cmd : Command) (s : State) : (issueNext cmd s).rstat = s.rstat := rfl
@[simp] theorem issueNext_rop (cmd : Command) (s : State) : (issueNext cmd s).rop = s.rop := rfl
@[simp] theorem issueNext_rcrc (cmd : Command) (s : State) : (issueNext cmd s).rcrc = s.rcrc := rfl
@[simp] theorem issueNext_rframe (cmd : Command) (s : State) : (issueNext cmd s).rframe = s.rframe := rfl
@[simp] theorem issueNext_pending (cmd : Command) (s : State) : (issueNext cmd s).pending = .issue cmd :: s.pending := rfl
@[simp] theorem issueNext_position (cmd : Command) (s : State) : (issueNext cmd s).position = s.position := rfl
@[simp] theorem issueNext_replies (cmd : Command) (s : State) : (issueNext cmd s).replies = s.replies := rfl
@[simp] theorem issueNext_resetCount (cmd : Command) (s : State) : (issueNext cmd s).resetCount = s.resetCount := rfl

end Sys2Proof.Machine
end

