-- ==== Sys2Proof/Laws/Ops.lean ====
section
/-! SUPPORT. One lemma per shared operation, saying once everything it can do. -/

namespace Sys2Proof.Machine

open Sys2Proof

/-- A legal command completes by one write of the latch (what it writes is given command by command). -/
theorem exec_next (i : Instr) (s : State) : ∃ a b c d, exec i s = .next (writeLatch a b c d s) := by
  cases i <;> exact ⟨_, _, _, _, rfl⟩

/-- The latch write of the illegal command, in the spec's numbers. -/
theorem takeIllegal_eq (op : Opcode) (s : State) :
    takeIllegal op s = writeLatch 0xC0#8 op 0x00#8 0x00000000#32 s := rfl

/-- An ISSUE is the meaning of the decoded command, or the illegal command. -/
theorem performIssue_cases (cmd : Command) (s : State) :
    (∃ i, decode cmd = .ok i ∧ performIssue cmd s = exec i s) ∨
    (∃ op, decode cmd = .error (.illegalCommand op) ∧ performIssue cmd s = .next (takeIllegal op s)) := by
  unfold performIssue
  cases h : decode cmd with
  | ok i => exact .inl ⟨i, rfl, rfl⟩
  | error e =>
    cases e with
    | illegalCommand op => exact .inr ⟨op, rfl, rfl⟩

/-- Every ISSUE completes, and its only effect is one write of the latch. -/
theorem performIssue_next (cmd : Command) (s : State) :
    ∃ a b c d, performIssue cmd s = .next (writeLatch a b c d s) := by
  rcases performIssue_cases cmd s with ⟨i, -, h⟩ | ⟨op, -, h⟩
  · obtain ⟨a, b, c, d, e⟩ := exec_next i s
    exact ⟨a, b, c, d, h.trans e⟩
  · exact ⟨_, _, _, _, h⟩

/-- A register number names a register exactly when it is below 4. -/
theorem registerOfNumber_none_iff (n : Nat) : registerOfNumber n = none ↔ 4 ≤ n := by
  rcases n with _ | _ | _ | _ | n <;> simp [registerOfNumber]

/-- Everything a READ can do. -/
theorem performRead_cases (n : Nat) (s : State) :
    (4 ≤ n ∧ performRead n s = .fault (.badRegister n)) ∨
    (∃ r, registerOfNumber n = some r ∧ readAllowed r s = true ∧
      performRead n s = .next (giveReply (readRegister r s) s)) ∨
    (∃ r, registerOfNumber n = some r ∧ readAllowed r s = false ∧ performRead n s = .fault (.readBeforeResult r)) := by
  unfold performRead
  cases h : registerOfNumber n with
  | none => exact .inl ⟨(registerOfNumber_none_iff n).1 h, rfl⟩
  | some r =>
    cases hr : readAllowed r s
    · exact .inr (.inr ⟨r, rfl, hr, by simp [hr]⟩)
    · exact .inr (.inl ⟨r, rfl, hr, by simp [hr]⟩)

/-- A step with nothing pending changes nothing. -/
theorem step_of_nil (s : State) (h : s.pending = []) : step s = .next s := by
  simp [step, performNext, nextTransaction, h]

/-- A step performs the transaction at the head of the host's sequence. -/
theorem step_of_cons (s : State) (t : Transaction) (ts : List Transaction) (h : s.pending = t :: ts) :
    step s = perform t (advance s) := by
  simp [step, performNext, nextTransaction, h]

end Sys2Proof.Machine
end

