-- ==== Sys2Proof/Laws/PerInstr.lean ====
section
/-! SUPPORT. Statements about every command as a term, one lemma per constructor of `Instr`. -/

namespace Sys2Proof.Laws

open Sys2Proof

/-- The opcode of each command in the opcode map (30_encoding.md R57). -/
def opcodeOf : Instr → Opcode
  | .crc8 _ => 0x1#4
  | .build _ _ => 0x2#4
  | .validate _ _ => 0x3#4
  | .extract _ _ _ => 0x4#4

/-- The encoder writes the command's opcode and RSV = 0 (R57, R66). -/
def EncodeFixed.Statement (i : Instr) : Prop := opField (encode i) = opcodeOf i ∧ rsvField (encode i) = 0#5

theorem EncodeFixed.crc8 (m : Message) : EncodeFixed.Statement (.crc8 m) :=
  ⟨opField_commandWord _ _ _, rsvField_commandWord _ _ _⟩

theorem EncodeFixed.build (addr : Address) (data : Half) : EncodeFixed.Statement (.build addr data) :=
  ⟨opField_commandWord _ _ _, rsvField_commandWord _ _ _⟩

theorem EncodeFixed.validate (f : Frame) (ea : Address) : EncodeFixed.Statement (.validate f ea) :=
  ⟨opField_commandWord _ _ _, rsvField_commandWord _ _ _⟩

theorem EncodeFixed.extract (msbw lsbw : Half) (ea : Address) : EncodeFixed.Statement (.extract msbw lsbw ea) :=
  ⟨opField_commandWord _ _ _, rsvField_commandWord _ _ _⟩

end Sys2Proof.Laws
end

