-- ==== Sys2Proof/Tests/Slice0.lean ====
section
/-! SUPPORT. Tests: expected values are the spec's own vectors (95_test_vectors.md) and worked encodings (30_encoding.md
R67). Then one witness per statement with hypotheses: a concrete input that meets them, at the ends of their ranges. -/

namespace Sys2Proof.Tests

open Sys2Proof Sys2Proof.Machine Sys2Proof.Spec

/-- RSTAT, ROP, RCRC and RFRAME of a next state. -/
def latchOf (o : Host.Outcome State Fault Refusal) : Option (BitVec 8 × BitVec 4 × BitVec 8 × BitVec 32) :=
  match o with
  | .next s => some (s.rstat, s.rop, s.rcrc, s.rframe)
  | .fault _ => none
  | .refused _ => none

/-- The replies of a next state, or the fault. -/
def repliesOrFault (o : Host.Outcome State Fault Refusal) : Except (Option Fault) (List Reply) :=
  match o with
  | .next s => .ok s.replies
  | .fault e => .error (some e)
  | .refused _ => .error none

/-- The answer of a decoder or an assembler, if it gives one. -/
def answer {ε α : Type} : Except ε α → Option α
  | .ok a => some a
  | .error _ => none

/-- The reason of a refusal, if there is one. -/
def reason {ε α : Type} : Except ε α → Option ε
  | .ok _ => none
  | .error e => some e

/-- Power-on with these transactions to come. -/
def start (ts : List Transaction) : State := { State.reset with pending := ts }

/-- A state whose latch holds these values, with these transactions to come. -/
def latch (rstat : BitVec 8) (rop : BitVec 4) (rcrc : BitVec 8) (rframe : BitVec 32) (ts : List Transaction) : State :=
  { rstat := rstat, rop := rop, rcrc := rcrc, rframe := rframe
    pending := ts, position := 0, replies := [], resetCount := 0 }

/-! ### Words written out from 30_encoding.md R56 to R61 -/

/-- OP 0001, RSV 00000, EA 0000000, M = 0x41002E, 00000000. -/
theorem test_decode_crc8 :
    decode 0b000100000000000001000001000000000010111000000000#48 = .ok (.crc8 0x41002E#24) := by rfl

/-- OP 0010, RSV 11111, EA 1111111, PL[31] 1, ADDR 1000001, DATA 0x002E, 11111111: the ignored bits all ones (V-B7). -/
theorem test_decode_build :
    decode 0b001011111111111111000001000000000010111011111111#48 = .ok (.build 0x41#7 0x002E#16) := by rfl

/-- OP 0011, RSV 00000, EA 0101110, F = 0xAEA0209C. -/
theorem test_decode_validate :
    decode 0b001100000010111010101110101000000010000010011100#48 = .ok (.validate 0xAEA0209C#32 0x2E#7) := by rfl

/-- OP 0100, RSV 00000, EA 0101110, MSBW = 0xAEA0, LSBW = 0x209C. -/
theorem test_decode_extract :
    decode 0b010000000010111010101110101000000010000010011100#48 = .ok (.extract 0xAEA0#16 0x209C#16 0x2E#7) := by rfl

/-- The reserved opcodes at the ends of their ranges are rejected by name. -/
theorem test_decode_reserved :
    decode 0x000000000000#48 = .error (.illegalCommand 0x0#4) ∧
    decode 0x5012DEADBEEF#48 = .error (.illegalCommand 0x5#4) ∧
    decode 0xFFFFFFFFFFFF#48 = .error (.illegalCommand 0xF#4) := ⟨rfl, rfl, rfl⟩

/-- The opcode table's `match` words. -/
theorem test_table_words :
    decodeTableWord 48 0x100000000000 = some (.crc8 0#24) ∧ decodeTableWord 48 0x200000000000 = some (.build 0#7 0#16) ∧
    decodeTableWord 48 0x300000000000 = some (.validate 0#32 0#7) ∧
    decodeTableWord 48 0x400000000000 = some (.extract 0#16 0#16 0#7) ∧ decodeTableWord 48 0 = none := by decide +kernel

/-! ### Each command, one step from power-on -/

/-- V-C1 (source vector V-S1). -/
theorem test_crc8_source_vector :
    latchOf (step (start [.issue 0x100041002E00#48])) = some (0x80#8, 0x1#4, 0x27#8, 0x41002E27#32) := by decide +kernel

/-- V-C9: every ignored bit set. -/
theorem test_crc8_ignored_bits :
    latchOf (step (start [.issue 0x1FD541002EFF#48])) = some (0x80#8, 0x1#4, 0x27#8, 0x41002E27#32) := by decide +kernel

/-- V-B4: the largest address and data. -/
theorem test_build_maximum :
    latchOf (step (start [.issue 0x20007FFFFF00#48])) = some (0x80#8, 0x2#4, 0x04#8, 0x7FFFFF04#32) := by decide +kernel

/-- V-B7: PL[31] and PL[7:0] do not reach the frame. -/
theorem test_build_ignored_bits :
    latchOf (step (start [.issue 0x2FFFC1002EFF#48])) = some (0x80#8, 0x2#4, 0x27#8, 0x41002E27#32) := by decide +kernel

/-- V-V1: a valid frame. -/
theorem test_validate_valid :
    latchOf (step (start [.issue 0x302EAEA0209C#48])) = some (0xBC#8, 0x3#4, 0x9C#8, 0xAEA0209C#32) := by decide +kernel

/-- V-V11: status and CRC fail, the address passes. -/
theorem test_validate_status_and_crc_fail :
    latchOf (step (start [.issue 0x302E2EA0209C#48])) = some (0x88#8, 0x3#4, 0x97#8, 0x2EA0209C#32) := by decide +kernel

/-- V-E3: the words swapped. -/
theorem test_extract_swapped_words :
    latchOf (step (start [.issue 0x402E209CAEA0#48])) = some (0x80#8, 0x4#4, 0x1D#8, 0x209CAEA0#32) := by decide +kernel

/-- V-E4: the wrong expected address. -/
theorem test_extract_wrong_address :
    latchOf (step (start [.issue 0x4041AEA0209C#48])) = some (0x94#8, 0x4#4, 0x9C#8, 0xAEA0209C#32) := by decide +kernel

/-- V-I2: an illegal command. -/
theorem test_illegal_command :
    latchOf (step (start [.issue 0x5012DEADBEEF#48])) = some (0xC0#8, 0x5#4, 0x00#8, 0x00000000#32) := by decide +kernel

/-- V-R1, V-R2, V-R3: reads at power-on. -/
theorem test_reads_at_power_on :
    repliesOrFault (step (start [.read 0])) = .ok [.rstat 0x00#8] ∧
    repliesOrFault (step (start [.read 3])) = .error (some (.readBeforeResult .rframe)) ∧
    repliesOrFault (step (start [.read 4])) = .error (some (.badRegister 4)) := ⟨rfl, rfl, rfl⟩

/-- The fetch of the host's harness runs the word as the first step after reset. -/
theorem test_fetch_word_runs_first :
    latchOf (step (State.reset.withFetchWord 48 0x100041002E00)) = some (0x80#8, 0x1#4, 0x27#8, 0x41002E27#32) := by
  decide +kernel

/-! ### The assembler: what it refuses, check by check, and lines of text -/

theorem test_wf_refuses_each_misfit :
    (SourceLine.crc8 (2 ^ 24)).unfit = some .message ∧ (SourceLine.build 128 0).unfit = some .address ∧
    (SourceLine.build 127 65536).unfit = some .data ∧ (SourceLine.validate (2 ^ 32) 0).unfit = some .frame ∧
    (SourceLine.validate 0 128).unfit = some .expectedAddress ∧ (SourceLine.extract 65536 0 0).unfit = some .msbWord ∧
    (SourceLine.extract 0 65536 0).unfit = some .lsbWord ∧
    (SourceLine.extract 0 0 128).unfit = some .expectedAddress ∧
    (SourceLine.cmd (2 ^ 48)).unfit = some .commandWord ∧ (SourceLine.read 4).unfit = some .register := by decide +kernel

/-- R67's VALIDATE, as a line of text with a comment. -/
theorem test_assemble_text_line :
    answer (assembleLine "  VALIDATE 0xAEA0209C, 0x2E ; P4".toList) = some (some (.issue 0x302EAEA0209C#48)) := by
  decide +kernel

/-- A line refused by its number and reason. -/
theorem test_assemble_text_refusal :
    reason (assembleText "RESET\n; note\nBUILD 0x80, 1\n".toList) = some (3, .doesNotFit .address) := by decide +kernel

/-- A malformed operand is reported before a misfit to its left (the model's choice, log entry 9). -/
theorem test_assemble_malformed_before_misfit :
    reason (assembleLine "BUILD 0x80, xyz".toList) = some (.notANumber .data) := by decide +kernel

/-! ### The CRC's tables -/

/-- R74's table against the bit-serial form, for every byte. -/
theorem test_crc_table :
    (List.range 256).all (fun v => crcTableEntry (BitVec.ofNat 8 v) == crcByte (BitVec.ofNat 8 v)) = true := by
  decide +kernel

/-- R75's basis against the loop. -/
theorem test_crc_basis :
    (List.range 24).all (fun k => crcBasis[k]? == some (crc8 (1#24 <<< k))) = true := by decide +kernel

/-! ### Witnesses: inputs that meet the hypotheses of the statements -/

/-- CrcLoopClearsTheUpperBits, at the ends of its range. -/
theorem witness_crc_loop_bits : (8 ≤ 8 ∧ 8 ≤ 31) ∧ (8 ≤ 31 ∧ 31 ≤ 31) ∧ (8 ≤ 8 ∧ 8 < 9) ∧ (8 ≤ 30 ∧ 30 < 31) := by decide

/-- CrcIsLinearWithTheBasisTable and Crc8CommandResult, at the ends of their ranges of `k`. -/
theorem witness_basis_range : 0 < 24 ∧ 23 < 24 ∧ 0 ≤ 23 ∧ 23 ≤ 23 := by decide

/-- SmallErrorsFailTheCrcCheck: a frame that passes, with errors of weight 1, 2, 3, of odd weight 5, and bursts at both ends
and of the full length 8. -/
theorem witness_small_errors :
    (checkFrame 0xAEA0209C#32 0x2E#7).crcOk = true ∧ 0x80000000#32 ≠ 0#32 ∧ weight 0x80000000#32 = 1 ∧
    weight 0x80000001#32 = 2 ∧ weight 0x80010001#32 = 3 ∧ weight 0x80010007#32 % 2 = 1 ∧
    0x00000081#32 = (0x81#8).setWidth 32 <<< 0 ∧ 0x81000000#32 = (0x81#8).setWidth 32 <<< 24 := by decide +kernel

/-- OpcodeSelectsCommandAndOperands and ExactlyReservedOpcodesAreIllegal: a word for each clause. -/
theorem witness_opcode_clauses :
    (0x100041002E00#48).extractLsb' 44 4 = 0x1#4 ∧ (0x200041002E00#48).extractLsb' 44 4 = 0x2#4 ∧
    (0x302EAEA0209C#48).extractLsb' 44 4 = 0x3#4 ∧ (0x402EAEA0209C#48).extractLsb' 44 4 = 0x4#4 ∧
    (0x000000000000#48).extractLsb' 44 4 = 0x0#4 ∧ 5 ≤ ((0x5012DEADBEEF#48).extractLsb' 44 4).toNat ∧
    5 ≤ ((0xFFFFFFFFFFFF#48).extractLsb' 44 4).toNat ∧ 1 ≤ ((0x100041002E00#48).extractLsb' 44 4).toNat ∧
    ((0x402EAEA0209C#48).extractLsb' 44 4).toNat ≤ 4 := by decide +kernel

/-- DecodedWordAgreesWithItsEncoding: a word of each command with every ignored bit set. -/
theorem witness_decoded_words :
    decode 0x1FFF41002EFF#48 = .ok (.crc8 0x41002E#24) ∧ decode 0x2FFFC1002EFF#48 = .ok (.build 0x41#7 0x002E#16) ∧
    decode 0x3FAEAEA0209C#48 = .ok (.validate 0xAEA0209C#32 0x2E#7) ∧
    decode 0x4FAEAEA0209C#48 = .ok (.extract 0xAEA0#16 0x209C#16 0x2E#7) := ⟨rfl, rfl, rfl, rfl⟩

/-- AssemblerEncodesLinesThatFitAndRefusesTheRest: the largest operand that fits and the smallest that does not. -/
theorem witness_assembler_bounds :
    0xFFFFFF < 2 ^ 24 ∧ 2 ^ 24 ≤ 0x1000000 ∧ 127 < 2 ^ 7 ∧ 2 ^ 7 ≤ 128 ∧ 65535 < 2 ^ 16 ∧ 2 ^ 16 ≤ 65536 ∧
    0xFFFFFFFF < 2 ^ 32 ∧ 2 ^ 32 ≤ 0x100000000 ∧ 0xFFFFFFFFFFFF < 2 ^ 48 ∧ 2 ^ 48 ≤ 0x1000000000000 ∧ 3 ≤ 3 ∧ 4 ≤ 4 := by
  decide

/-- BuildCommandResult (its third clause) and IllegalCommandResult (its second): the command answers a next state. -/
theorem witness_exec_answers (s : State) :
    (∃ t, exec (.build 0x7F#7 0xFFFF#16) s = .next t) ∧ (∃ t, exec (.validate 0#32 0#7) s = .next t) :=
  ⟨⟨_, rfl⟩, ⟨_, rfl⟩⟩

/-- BuiltFrameStatusBitIsZero: a BUILD with PL[31] set. -/
theorem witness_build_with_top_bit :
    (0x2FFFC1002EFF#48).extractLsb' 44 4 = 0x2#4 ∧ ∃ t, performIssue 0x2FFFC1002EFF#48 State.reset = .next t :=
  ⟨by decide +kernel, _, rfl⟩

/-- FrameChecksAreIndependentFlags and ReceivedFieldsAreKeptWhetherValidOrNot: both commands on one frame. -/
theorem witness_checking_commands :
    (Instr.extract 0xAEA0#16 0x209C#16 0x2E#7 =
      .extract ((0xAEA0209C#32).extractLsb' 16 16) ((0xAEA0209C#32).extractLsb' 0 16) 0x2E#7) ∧
    Instr.validate 0xAEA0209C#32 0x2E#7 = .validate 0xAEA0209C#32 0x2E#7 := by decide +kernel

/-- IllegalCommandResult: the reserved opcodes at the ends of their ranges. -/
theorem witness_reserved_opcodes : (0x0#4 = 0x0#4) ∧ 5 ≤ (0x5#4).toNat ∧ 5 ≤ (0xF#4).toNat := by decide

/-- HasFlagIsSetByCommandsAndClearedOnlyByReset: a RESET clears HAS in one step; and a state with HAS = 0. -/
theorem witness_has_cleared :
    ∃ t, step (latch 0xBC#8 0x3#4 0x9C#8 0xAEA0209C#32 [.reset]) = .next t ∧
      hasFlag (0xBC#8) = true ∧ hasFlag t.rstat = false ∧ hasFlag State.reset.rstat = false :=
  ⟨_, rfl, by decide, by decide +kernel, by decide +kernel⟩

/-- IllFlagReportsTheLastCommand: a legal command changes ILL in one step, and so does a RESET. -/
theorem witness_ill_changes :
    (∃ t, step (latch 0xC0#8 0x5#4 0#8 0#32 [.issue 0x100041002E00#48]) = .next t ∧ illFlag t.rstat ≠ illFlag 0xC0#8) ∧
    (∃ t, step (latch 0xC0#8 0x5#4 0#8 0#32 [.reset]) = .next t ∧ illFlag t.rstat ≠ illFlag 0xC0#8) :=
  ⟨⟨_, rfl, by decide +kernel⟩, ⟨_, rfl, by decide +kernel⟩⟩

/-- CheckFlagsReportTheLastCommand: a word for each of its clauses. -/
theorem witness_check_flag_clauses :
    (0x302EAEA0209C#48).extractLsb' 44 4 = 0x3#4 ∧ (0x402EAEA0209C#48).extractLsb' 44 4 = 0x4#4 ∧
    ¬((0x200041002E00#48).extractLsb' 44 4 = 0x3#4 ∨ (0x200041002E00#48).extractLsb' 44 4 = 0x4#4) ∧
    ¬((0x5012DEADBEEF#48).extractLsb' 44 4 = 0x3#4 ∨ (0x5012DEADBEEF#48).extractLsb' 44 4 = 0x4#4) := by decide +kernel

/-- ReadReturnsTheWholeRegister: a state with HAS = 1. ReadHasNoSideEffectAndIssueWritesOnlyTheLatch: a READ that
answers, at each end; a step that changes the latch is in `witness_ill_changes`. -/
theorem witness_read_allowed :
    hasFlag (latch 0xBC#8 0x3#4 0x9C#8 0xAEA0209C#32 []).rstat = true ∧
    (∃ t, performRead 0 State.reset = .next t) ∧
    (∃ t, performRead 3 (latch 0xBC#8 0x3#4 0x9C#8 0xAEA0209C#32 []) = .next t) :=
  ⟨by decide +kernel, ⟨_, rfl⟩, ⟨_, rfl⟩⟩

/-- ReadFaultsExactlyOnContractViolations and StepStopsOnlyOnAContractViolation: each fault, at the ends of its range. -/
theorem witness_read_faults :
    performRead 4 State.reset = .fault (.badRegister 4) ∧
    performRead 1 State.reset = .fault (.readBeforeResult .rop) ∧
    performRead 2 State.reset = .fault (.readBeforeResult .rcrc) ∧
    step (start [.read 3]) = .fault (.readBeforeResult .rframe) ∧ step (start [.read 4]) = .fault (.badRegister 4) :=
  ⟨rfl, rfl, rfl, rfl, rfl⟩

/-- StepPerformsTheNextTransaction and StepRunsTheDecodedCommand: nothing pending, a legal word, a reserved opcode. -/
theorem witness_step_heads :
    (start []).pending = [] ∧ (start [.issue 0x100041002E00#48]).pending = .issue 0x100041002E00#48 :: [] ∧
    decode 0x100041002E00#48 = .ok (.crc8 0x41002E#24) ∧
    (start [.issue 0x000000000000#48, .reset]).pending = .issue 0x000000000000#48 :: [.reset] ∧
    decode 0x000000000000#48 = .error (.illegalCommand 0x0#4) := ⟨rfl, rfl, rfl, rfl, rfl⟩

/-- ReadRightAfterIssueReturnsItsResult, at both ends of the register numbers. -/
theorem witness_issue_then_read :
    (0 < 4 ∧ (start [.issue 0x200041002E00#48, .read 0]).pending = .issue 0x200041002E00#48 :: .read 0 :: []) ∧
    (3 < 4 ∧ (start [.issue 0x200041002E00#48, .read 3]).pending = .issue 0x200041002E00#48 :: .read 3 :: []) :=
  ⟨⟨by decide, rfl⟩, ⟨by decide, rfl⟩⟩

/-- ContractKeepingSequenceCompletesWithThePredictedReplies: from power-on, and from a state that holds a result. -/
theorem witness_contract_sequences :
    (LatchHolds none (start [.read 0, .issue 0x200041002E00#48, .read 3, .reset, .read 0]) ∧
      contractHolds false [.read 0, .issue 0x200041002E00#48, .read 3, .reset, .read 0] = true) ∧
    (LatchHolds (some 0x302EAEA0209C#48) (latch 0xBC#8 0x3#4 0x9C#8 0xAEA0209C#32 [.read 2]) ∧
      contractHolds true [.read 2] = true) :=
  ⟨⟨rfl, by decide⟩, ⟨by unfold LatchHolds; decide +kernel, by decide⟩⟩

/-- UnspecifiedContentsAreNeverObserved: two states with HAS = 0 that differ in ROP, RCRC and RFRAME, and two with HAS = 1
that agree. -/
theorem witness_unobserved_contents :
    ((latch 0#8 0#4 0#8 0#32 [.read 0]).rstat = (latch 0#8 7#4 9#8 5#32 [.read 0]).rstat ∧
      (latch 0#8 0#4 0#8 0#32 [.read 0]).pending = (latch 0#8 7#4 9#8 5#32 [.read 0]).pending ∧
      (latch 0#8 0#4 0#8 0#32 [.read 0]).replies = (latch 0#8 7#4 9#8 5#32 [.read 0]).replies ∧
      ¬(hasFlag (latch 0#8 0#4 0#8 0#32 [.read 0]).rstat = true)) ∧
    hasFlag (latch 0xBC#8 0x3#4 0x9C#8 0xAEA0209C#32 []).rstat = true := by decide +kernel

/-- A state with the latch invariant and VALID = 1. -/
theorem witness_latch_invariant : LatchInv (latch 0xBC#8 0x3#4 0x9C#8 0xAEA0209C#32 [.read 3]) :=
  ⟨by decide +kernel, by decide +kernel, by decide +kernel, by decide +kernel, by decide +kernel, by decide +kernel,
    by decide +kernel⟩

/-- StepKeepsTheLatchInvariant and ValidFlagVouchesForTheFrame: that state answers a next state, and VALID is set. -/
theorem witness_invariant_step :
    (∃ t, step (latch 0xBC#8 0x3#4 0x9C#8 0xAEA0209C#32 [.read 3]) = .next t) ∧
    validFlag (latch 0xBC#8 0x3#4 0x9C#8 0xAEA0209C#32 [.read 3]).rstat = true := ⟨⟨_, rfl⟩, by decide +kernel⟩

/-- ReadOutcomeFollowsTheFrameChecks: words that pass all three checks, and words that fail each one. -/
theorem witness_read_outcomes :
    ((0xAEA0#16).getLsbD 15 = true ∧ (0xAEA0#16).extractLsb' 8 7 = 0x2E#7 ∧
      (0x209C#16).extractLsb' 0 8 = crc8 (0xAEA0#16 ++ (0x209C#16).extractLsb' 8 8)) ∧
    ¬((0x4100#16).getLsbD 15 = true) ∧ ¬((0xAEA0#16).extractLsb' 8 7 = 0x41#7) ∧
    ¬((0x2E2D#16).extractLsb' 0 8 = crc8 (0xC100#16 ++ (0x2E2D#16).extractLsb' 8 8)) := by decide +kernel

/-- AssemblerTextCommentsAndRefusalByLineNumber: a body without a comment, good lines and a bad one. -/
theorem witness_assembler_text :
    ';' ∉ "RESET ".toList ∧ answer (assembleLine "RESET".toList) = some (some .reset) ∧
    reason (assembleLine "CRC8".toList) = some .operandCount := by decide +kernel

end Sys2Proof.Tests
end

/-! SUPPORT and the statements of 10_state.md. One normal form carries them: every ISSUE writes the row of R38's table for
its command word (`performIssue_eq_withRow`), and every row's RSTAT is one of three `packRstat` values
(`latchRow_rstat_cases`), whose flags are read off by `simp`. `step_next_cases` says once what a step can do. -/

namespace Sys2Proof.Proofs

open Sys2Proof Sys2Proof.Machine Sys2Proof.Spec

/-! ### RSTAT's flags, as a command writes them and as a READ returns them -/

section Flags

variable (ill valid sts addr crc : Bool)

@[simp] theorem hasFlag_packRstat : hasFlag (packRstat ill valid sts addr crc) = true := by
  revert ill valid sts addr crc; decide

@[simp] theorem illFlag_packRstat : illFlag (packRstat ill valid sts addr crc) = ill := by
  revert ill valid sts addr crc; decide

@[simp] theorem validFlag_packRstat : validFlag (packRstat ill valid sts addr crc) = valid := by
  revert ill valid sts addr crc; decide

@[simp] theorem stsOkFlag_packRstat : stsOkFlag (packRstat ill valid sts addr crc) = sts := by
  revert ill valid sts addr crc; decide

@[simp] theorem addrOkFlag_packRstat : addrOkFlag (packRstat ill valid sts addr crc) = addr := by
  revert ill valid sts addr crc; decide

@[simp] theorem crcOkFlag_packRstat : crcOkFlag (packRstat ill valid sts addr crc) = crc := by
  revert ill valid sts addr crc; decide

/-- The row `1 0 s&a&c s a c 00` of R38, written with one-bit vectors. -/
theorem packRstat_checked :
    packRstat false (sts && addr && crc) sts addr crc =
      0b10#2 ++ (BitVec.ofBool sts &&& BitVec.ofBool addr &&& BitVec.ofBool crc) ++ BitVec.ofBool sts ++
        BitVec.ofBool addr ++ BitVec.ofBool crc ++ 0b00#2 := by
  revert sts addr crc; decide

end Flags

@[simp] theorem hasFlag_zero : hasFlag 0x00#8 = false := by decide

@[simp] theorem illFlag_zero : illFlag 0x00#8 = false := by decide

theorem rstatValue_reserved_bits (s : State) : (rstatValue s).extractLsb' 0 2 = 0#2 := by
  rw [rstatValue, BitVec.extractLsb'_and, show (0xFC#8).extractLsb' 0 2 = 0#2 by decide, BitVec.and_zero]

theorem rstatValue_flag_bits (s : State) : (rstatValue s).extractLsb' 2 6 = s.rstat.extractLsb' 2 6 := by
  rw [rstatValue, BitVec.extractLsb'_and, show (0xFC#8).extractLsb' 2 6 = BitVec.allOnes 6 by decide,
    BitVec.and_allOnes]

/-! ### The operands as bits of the command word (30_encoding.md R58 to R61) -/

/-- A slice of PL is the same slice of the command word. -/
theorem plField_extractLsb' (cmd : Command) {start len : Nat} (h : start + len ≤ 32) :
    (plField cmd).extractLsb' start len = cmd.extractLsb' start len :=
  BitVec.extractLsb'_extractLsb'_of_le h

theorem statusBit_plField (cmd : Command) : statusBit (plField cmd) = cmd.getLsbD 31 := by
  simp [statusBit, plField]

theorem addressField_plField (cmd : Command) : addressField (plField cmd) = cmd.extractLsb' 24 7 :=
  plField_extractLsb' cmd (by decide)

theorem crcField_plField (cmd : Command) : crcField (plField cmd) = cmd.extractLsb' 0 8 :=
  plField_extractLsb' cmd (by decide)

theorem messageOf_plField (cmd : Command) : messageOf (plField cmd) = cmd.extractLsb' 8 24 :=
  plField_extractLsb' cmd (by decide)

/-- The two transport words of a frame, put together again (20_memory.md R44). -/
theorem frameOfWords_slices (f : Frame) : frameOfWords (f.extractLsb' 16 16) (f.extractLsb' 0 16) = f :=
  (BitVec.extractLsb'_append_extractLsb'_eq_extractLsb' rfl).trans BitVec.extractLsb'_eq_self

/-- The data's two bytes of R80, high byte first, are the data. -/
theorem writeMessage_eq (addr : Address) (data : Half) : writeMessage addr data = 0#1 ++ addr ++ data :=
  congrArg (fun d : Half => (0#1 ++ addr) ++ d)
    ((BitVec.extractLsb'_append_extractLsb'_eq_extractLsb' rfl).trans BitVec.extractLsb'_eq_self)

theorem checkFrame_plField (cmd : Command) (ea : Address) :
    checkFrame (plField cmd) ea =
      { stsOk := cmd.getLsbD 31
        addrOk := cmd.extractLsb' 24 7 == ea
        crcOk := cmd.extractLsb' 0 8 == crc8 (cmd.extractLsb' 8 24) } := by
  rw [checkFrame, statusBit_plField, addressField_plField, crcField_plField, messageOf_plField]

/-! ### The opcodes (30_encoding.md R57, R64) -/

theorem opcodeLegal_eq_false_iff (op : Opcode) : opcodeLegal op = false ↔ op = 0x0#4 ∨ 5 ≤ op.toNat := by
  revert op; decide

/-- The three kinds of command: those that make a frame, those that check one, and the illegal command. -/
theorem opcode_cases (op : Opcode) :
    (op = 0x1#4 ∨ op = 0x2#4) ∨ (op = 0x3#4 ∨ op = 0x4#4) ∨ opcodeLegal op = false := by
  revert op; decide

/-! ### The rows of the flag table (10_state.md R38), in the model's operations -/

section Rows

variable {cmd : Command}

theorem latchRow_of_crc8 (h : opField cmd = 0x1#4) :
    latchRow cmd =
      { rstat := rstatResult
        rop := 0x1#4
        rcrc := crc8 (cmd.extractLsb' 8 24)
        rframe := frameOfMessage (cmd.extractLsb' 8 24) (crc8 (cmd.extractLsb' 8 24)) } :=
  if_pos h

theorem latchRow_of_build (h : opField cmd = 0x2#4) :
    latchRow cmd =
      { rstat := rstatResult
        rop := 0x2#4
        rcrc := crc8 (writeMessage (cmd.extractLsb' 24 7) (cmd.extractLsb' 8 16))
        rframe := frameOfMessage (writeMessage (cmd.extractLsb' 24 7) (cmd.extractLsb' 8 16))
          (crc8 (writeMessage (cmd.extractLsb' 24 7) (cmd.extractLsb' 8 16))) } := by
  unfold opField at h
  rw [writeMessage_eq]
  simp only [latchRow, h]
  rfl

/-- R38's row of a checking command is the latch that `writeChecked` writes. -/
theorem checkedRow_eq (cmd : Command) :
    checkedRow cmd =
      { rstat := rstatChecked (checkFrame (plField cmd) (eaField cmd))
        rop := opField cmd
        rcrc := crc8 (messageOf (plField cmd))
        rframe := plField cmd } := by
  have hsts : cmd.extractLsb' 31 1 = BitVec.ofBool (cmd.getLsbD 31) := by
    ext i hi
    simp [show i = 0 by omega]
  rw [checkFrame_plField, messageOf_plField, rstatChecked, checksPass, packRstat_checked, ← hsts]
  rfl

theorem latchRow_of_checked (h : opField cmd = 0x3#4 ∨ opField cmd = 0x4#4) : latchRow cmd = checkedRow cmd := by
  unfold opField at h
  rcases h with h | h <;> simp [latchRow, h]

theorem latchRow_of_reserved (h : opcodeLegal (opField cmd) = false) :
    latchRow cmd = { rstat := rstatIllegal, rop := opField cmd, rcrc := 0x00#8, rframe := 0x00000000#32 } := by
  simp only [opcodeLegal, Bool.or_eq_false_iff, beq_eq_false_iff_ne] at h
  obtain ⟨⟨⟨h1, h2⟩, h3⟩, h4⟩ := h
  unfold opField at h1 h2 h3 h4
  simp only [latchRow, h1, h2, h3, h4]
  rfl

end Rows

/-- The RSTAT of every row: HAS alone, the frame checks, or HAS and ILL. -/
theorem latchRow_rstat_cases (cmd : Command) :
    ((opField cmd = 0x1#4 ∨ opField cmd = 0x2#4) ∧ (latchRow cmd).rstat = rstatResult) ∨
    ((opField cmd = 0x3#4 ∨ opField cmd = 0x4#4) ∧
      (latchRow cmd).rstat = rstatChecked (checkFrame (plField cmd) (eaField cmd))) ∨
    (opcodeLegal (opField cmd) = false ∧ (latchRow cmd).rstat = rstatIllegal) := by
  rcases opcode_cases (opField cmd) with h | h | h
  · refine .inl ⟨h, ?_⟩
    rcases h with h | h
    · rw [latchRow_of_crc8 h]
    · rw [latchRow_of_build h]
  · exact .inr (.inl ⟨h, by rw [latchRow_of_checked h, checkedRow_eq]⟩)
  · exact .inr (.inr ⟨h, by rw [latchRow_of_reserved h]⟩)

@[simp] theorem hasFlag_latchRow (cmd : Command) : hasFlag (latchRow cmd).rstat = true := by
  rcases latchRow_rstat_cases cmd with ⟨-, h⟩ | ⟨-, h⟩ | ⟨-, h⟩
  · simp [h, rstatResult]
  · simp [h, rstatChecked]
  · simp [h, rstatIllegal]

theorem illFlag_latchRow (cmd : Command) : illFlag (latchRow cmd).rstat = !opcodeLegal (opField cmd) := by
  rcases latchRow_rstat_cases cmd with ⟨hop, h⟩ | ⟨hop, h⟩ | ⟨hop, h⟩
  · rcases hop with hop | hop <;> simp [h, hop, rstatResult, opcodeLegal]
  · rcases hop with hop | hop <;> simp [h, hop, rstatChecked, opcodeLegal]
  · simp [h, hop, rstatIllegal]

/-- VALIDATE and EXTRACT write the checks of R83 to R85, and VALID as their conjunction (R27). -/
theorem checkFlags_latchRow_of_checked {cmd : Command} (hop : opField cmd = 0x3#4 ∨ opField cmd = 0x4#4) :
    stsOkFlag (latchRow cmd).rstat = cmd.getLsbD 31 ∧
    addrOkFlag (latchRow cmd).rstat = (cmd.extractLsb' 24 7 == eaField cmd) ∧
    crcOkFlag (latchRow cmd).rstat = (cmd.extractLsb' 0 8 == crc8 (cmd.extractLsb' 8 24)) ∧
    validFlag (latchRow cmd).rstat =
      (stsOkFlag (latchRow cmd).rstat && addrOkFlag (latchRow cmd).rstat && crcOkFlag (latchRow cmd).rstat) := by
  rw [latchRow_of_checked hop, checkedRow_eq, checkFrame_plField]
  simp [rstatChecked, checksPass]

/-- Every other command writes the check flags 0 (R27 to R30). -/
theorem checkFlags_latchRow_of_not_checked {cmd : Command} (hop : ¬(opField cmd = 0x3#4 ∨ opField cmd = 0x4#4)) :
    validFlag (latchRow cmd).rstat = false ∧ stsOkFlag (latchRow cmd).rstat = false ∧
    addrOkFlag (latchRow cmd).rstat = false ∧ crcOkFlag (latchRow cmd).rstat = false := by
  rcases latchRow_rstat_cases cmd with ⟨-, h⟩ | ⟨hop', -⟩ | ⟨-, h⟩
  · simp [h, rstatResult]
  · exact absurd hop' hop
  · simp [h, rstatIllegal]

@[simp] theorem withRow_rstat (r : LatchRow) (s : State) : (withRow r s).rstat = r.rstat := rfl

/-! ### What each transaction does -/

/-- An ISSUE writes its row of the flag table, and that is all it does (20_memory.md R50, R51). -/
theorem performIssue_eq_withRow (cmd : Command) (s : State) :
    performIssue cmd s = .next (withRow (latchRow cmd) s) := by
  unfold performIssue
  rcases decode_cases cmd with ⟨hop, hd⟩ | ⟨hop, hd⟩ | ⟨hop, hd⟩ | ⟨hop, hd⟩ | ⟨⟨h1, h2, h3, h4⟩, hd⟩
  · rw [hd, latchRow_of_crc8 hop, plField_extractLsb' cmd (by decide)]
    rfl
  · rw [hd, latchRow_of_build hop, plField_extractLsb' cmd (by decide), plField_extractLsb' cmd (by decide)]
    rfl
  · rw [hd, latchRow_of_checked (.inl hop), checkedRow_eq, hop]
    rfl
  · rw [hd, latchRow_of_checked (.inr hop), checkedRow_eq, hop]
    change Host.Outcome.next (writeChecked _ (frameOfWords _ _) _ s) = _
    rw [frameOfWords_slices]
    rfl
  · rw [hd, latchRow_of_reserved (by simp [opcodeLegal, h1, h2, h3, h4])]
    rfl

theorem performReset_eq (s : State) : performReset s = .next (resetLatch s) := rfl

theorem rstat_of_performReset {s t : State} (h : performReset s = .next t) : t.rstat = 0x00#8 := by
  rw [performReset_eq, Host.Outcome.next.injEq] at h
  rw [← h, resetLatch_rstat]

/-- RSTAT may be read at any time (R111). -/
theorem performRead_zero (s : State) : performRead 0 s = .next (giveReply (.rstat (rstatValue s)) s) := by
  simp [performRead, registerOfNumber, readAllowed, readRegister]

/-- While HAS = 0 a READ of any register but RSTAT faults (R37, R111). -/
theorem performRead_of_has_clear {n : Nat} {r : ResultRegister} {s : State} (hn : registerOfNumber n = some r)
    (hr : r ≠ .rstat) (h : hasFlag s.rstat = false) : performRead n s = .fault (.readBeforeResult r) := by
  simp [performRead, hn, readAllowed, hr, h]

theorem reads_fault_of_has_clear {s : State} (h : hasFlag s.rstat = false) :
    performRead 1 s = .fault (.readBeforeResult .rop) ∧ performRead 2 s = .fault (.readBeforeResult .rcrc) ∧
    performRead 3 s = .fault (.readBeforeResult .rframe) :=
  ⟨performRead_of_has_clear rfl (by decide) h, performRead_of_has_clear rfl (by decide) h,
    performRead_of_has_clear rfl (by decide) h⟩

/-- Everything a step that answers a next state can have done. -/
theorem step_next_cases {s t : State} (h : step s = .next t) :
    (s.pending = [] ∧ t = s) ∨
    (∃ cmd, s.pending.head? = some (.issue cmd) ∧ t = withRow (latchRow cmd) (advance s)) ∨
    (∃ n r, s.pending.head? = some (.read n) ∧ registerOfNumber n = some r ∧ readAllowed r s = true ∧
      t = giveReply (readRegister r s) (advance s)) ∨
    (s.pending.head? = some .reset ∧ t = resetLatch (advance s)) := by
  cases hp : s.pending with
  | nil =>
    rw [step_of_nil s hp, Host.Outcome.next.injEq] at h
    exact .inl ⟨rfl, h.symm⟩
  | cons x xs =>
    rw [step_of_cons s x xs hp] at h
    cases x with
    | issue cmd =>
      rw [perform, performIssue_eq_withRow, Host.Outcome.next.injEq] at h
      exact .inr (.inl ⟨cmd, rfl, h.symm⟩)
    | read n =>
      rw [perform] at h
      rcases performRead_cases n (advance s) with ⟨-, hr⟩ | ⟨r, hn, ha, hr⟩ | ⟨r, -, -, hr⟩
      · rw [hr] at h
        cases h
      · rw [hr, Host.Outcome.next.injEq] at h
        exact .inr (.inr (.inl ⟨n, r, rfl, hn, ha, h.symm⟩))
      · rw [hr] at h
        cases h
    | reset =>
      rw [perform, performReset_eq, Host.Outcome.next.injEq] at h
      exact .inr (.inr (.inr ⟨rfl, h.symm⟩))

/-- RSTAT after a step: as before, the row of the command issued, or cleared by a RESET. -/
theorem step_rstat_cases {s t : State} (h : step s = .next t) :
    t.rstat = s.rstat ∨
    (∃ cmd, s.pending.head? = some (.issue cmd) ∧ t.rstat = (latchRow cmd).rstat) ∨
    (s.pending.head? = some .reset ∧ t.rstat = 0x00#8) := by
  rcases step_next_cases h with ⟨-, rfl⟩ | ⟨cmd, hp, rfl⟩ | ⟨n, r, -, -, -, rfl⟩ | ⟨hp, rfl⟩
  · exact .inl rfl
  · exact .inr (.inl ⟨cmd, hp, rfl⟩)
  · exact .inl rfl
  · exact .inr (.inr ⟨hp, rfl⟩)

/-! ### The statements -/

/-- Settles O27: the four kinds of row, at the opcodes the decoder tells apart. -/
theorem everyCommandLeavesItsRowOfTheFlagTable : Obligations.EveryCommandLeavesItsRowOfTheFlagTable :=
  performIssue_eq_withRow

/-- Settles O28: the row that an ISSUE writes is read from the command word alone. -/
theorem commandResultIgnoresTheLatch : Obligations.CommandResultIgnoresTheLatch := by
  intro cmd s s'
  exact ⟨_, _, performIssue_eq_withRow cmd s, performIssue_eq_withRow cmd s', rfl, rfl, rfl, rfl, hasFlag_latchRow cmd⟩

/-- Settles O29: of the three things a step can do to RSTAT, only a RESET leaves HAS = 0 where it was 1. -/
theorem hasFlagIsSetByCommandsAndClearedOnlyByReset : Obligations.HasFlagIsSetByCommandsAndClearedOnlyByReset := by
  refine ⟨hasFlag_zero, ?reset, ?command, ?step, fun _ => reads_fault_of_has_clear⟩
  case reset =>
    intro s t h
    rw [rstat_of_performReset h, hasFlag_zero]
  case command =>
    intro cmd s
    exact ⟨_, performIssue_eq_withRow cmd s, hasFlag_latchRow cmd⟩
  case step =>
    intro s t h hset hclear
    rcases step_rstat_cases h with hsame | ⟨cmd, -, hrow⟩ | ⟨hp, -⟩
    · simp [hsame, hset] at hclear
    · simp [hrow] at hclear
    · exact hp

/-- Settles O30: a row's ILL is the reserved opcode's, and a step that is neither ISSUE nor RESET leaves RSTAT alone. -/
theorem illFlagReportsTheLastCommand : Obligations.IllFlagReportsTheLastCommand := by
  refine ⟨?command, ?reset, ?step⟩
  case command =>
    intro cmd s
    refine ⟨_, performIssue_eq_withRow cmd s, ?_⟩
    rw [withRow_rstat, illFlag_latchRow, Bool.not_eq_true', opcodeLegal_eq_false_iff]
    rfl
  case reset =>
    intro s t h
    rw [rstat_of_performReset h, illFlag_zero]
  case step =>
    intro s t h hchange
    rcases step_rstat_cases h with hsame | ⟨cmd, hp, -⟩ | ⟨hp, -⟩
    · exact absurd (congrArg illFlag hsame) hchange
    · exact .inl ⟨cmd, hp⟩
    · exact .inr hp

/-- Settles O31: the flags of the row, for the checking opcodes and for the others. -/
theorem checkFlagsReportTheLastCommand : Obligations.CheckFlagsReportTheLastCommand := by
  intro cmd s
  exact ⟨_, performIssue_eq_withRow cmd s, checkFlags_latchRow_of_checked, checkFlags_latchRow_of_not_checked⟩

/-- Settles O32: the value a READ of number 0 returns is `rstatValue`, whose mask clears the reserved bits alone. -/
theorem reservedStatusBitsReadZero : Obligations.ReservedStatusBitsReadZero := by
  intro s
  exact ⟨rstatValue s, performRead_zero s, rstatValue_reserved_bits s, rstatValue_flag_bits s⟩

/-- Settles O37: power-on has HAS = 0, whatever the free contents are. -/
theorem resetValuesOfTheLatch : Obligations.ResetValuesOfTheLatch :=
  ⟨rfl, reads_fault_of_has_clear hasFlag_zero⟩

end Sys2Proof.Proofs

/-! SUPPORT and the statements of 20_memory.md. The CRC is linear, so setting the status bit XORs in the CRC of that bit
alone; and a READ writes only the replies, which neither the contract of a READ nor a register's value looks at. -/

namespace Sys2Proof.Proofs

open Sys2Proof Sys2Proof.Machine

/-! ### The CRC is linear (40_crc.md R75) -/

theorem crcLoop_xor (n : Nat) (a b : BitVec 32) : crcLoop n (a ^^^ b) = crcLoop n a ^^^ crcLoop n b := by
  induction n generalizing a b with
  | zero => rfl
  | succ n ih => simp only [crcLoop_succ, crcStep_xor, ih]

theorem rem32_xor (f g : Frame) : rem32 (f ^^^ g) = rem32 f ^^^ rem32 g := by
  rw [rem32, crcLoop_xor, BitVec.extractLsb'_xor, rem32, rem32]

theorem crc8_xor (a b : Message) : crc8 (a ^^^ b) = crc8 a ^^^ crc8 b := by
  have happend : (a ^^^ b) ++ 0#8 = (a ++ 0#8) ^^^ (b ++ 0#8) := by rw [BitVec.xor_append, BitVec.xor_self]
  rw [crc8, happend, rem32_xor, crc8, crc8]

/-- Setting the status bit of frame bytes 0 to 2 is an XOR with their top bit. -/
theorem set_statusBit_eq_xor (a : Address) (d : Half) : 1#1 ++ a ++ d = (0#1 ++ a ++ d) ^^^ 0x800000#24 := by
  have htop : 0x800000#24 = 1#1 ++ 0#7 ++ 0#16 := by decide
  rw [htop, BitVec.xor_append, BitVec.xor_append, BitVec.xor_zero, BitVec.xor_zero, BitVec.zero_xor]

/-- The last entry of R75's basis: the CRC of the status bit alone. -/
theorem crc8_statusBit : crc8 0x800000#24 = 0x0B#8 := by decide +kernel

/-! ### What a READ leaves unchanged (20_memory.md R51) -/

@[simp] theorem readAllowed_giveReply (r : ResultRegister) (v : Reply) (s : State) :
    readAllowed r (giveReply v s) = readAllowed r s := rfl

@[simp] theorem readRegister_giveReply (r : ResultRegister) (v : Reply) (s : State) :
    readRegister r (giveReply v s) = readRegister r s := by
  cases r <;> rfl

/-- A READ that answers names a register that may be read, and adds its value to the replies. -/
theorem performRead_eq_next_iff {n : Nat} {s t : State} :
    performRead n s = .next t ↔
      ∃ r, registerOfNumber n = some r ∧ readAllowed r s = true ∧ t = giveReply (readRegister r s) s := by
  constructor
  · intro h
    rcases performRead_cases n s with ⟨-, hr⟩ | ⟨r, hn, ha, hr⟩ | ⟨r, -, -, hr⟩
    · rw [hr] at h
      cases h
    · rw [hr, Host.Outcome.next.injEq] at h
      exact ⟨r, hn, ha, h.symm⟩
    · rw [hr] at h
      cases h
  · rintro ⟨r, hn, ha, rfl⟩
    simp [performRead, hn, ha]

/-- A READ that answers can be repeated, and gives the same value again. -/
theorem performRead_repeats {n : Nat} {s t : State} (h : performRead n s = .next t) :
    ∃ v, t = giveReply v s ∧ performRead n t = .next (giveReply v t) := by
  obtain ⟨r, hn, ha, rfl⟩ := performRead_eq_next_iff.1 h
  refine ⟨readRegister r s, rfl, performRead_eq_next_iff.2 ⟨r, hn, ?_, ?_⟩⟩
  · rw [readAllowed_giveReply, ha]
  · rw [readRegister_giveReply]

/-! ### The statements -/

/-- Settles O9: by linearity the two CRCs differ by the CRC of the status bit alone, which is not zero. -/
theorem statusBitChangesTheCrc : Obligations.StatusBitChangesTheCrc := by
  intro a d
  have hdiff : crc8 (0#1 ++ a ++ d) ^^^ crc8 (1#1 ++ a ++ d) = 0x0B#8 := by
    rw [set_statusBit_eq_xor, crc8_xor, crc8_statusBit, ← BitVec.xor_assoc, BitVec.xor_self, BitVec.zero_xor]
  refine ⟨hdiff, fun heq => ?_⟩
  rw [heq, BitVec.xor_self] at hdiff
  exact absurd hdiff (by decide)

/-- Settles O35: of the things a step can do, only an ISSUE and a RESET write the latch. -/
theorem readHasNoSideEffectAndIssueWritesOnlyTheLatch :
    Obligations.ReadHasNoSideEffectAndIssueWritesOnlyTheLatch := by
  refine ⟨?read, ?step, ?issue⟩
  case read =>
    intro n s t h
    obtain ⟨v, ht, hagain⟩ := performRead_repeats h
    exact ⟨v, giveReply v t, ht, hagain, giveReply_replies v t⟩
  case step =>
    intro s t h hchange
    rcases step_next_cases h with ⟨-, rfl⟩ | ⟨cmd, hp, -⟩ | ⟨n, r, -, -, -, rfl⟩ | ⟨hp, -⟩
    · simp at hchange
    · exact .inl ⟨cmd, hp⟩
    · simp at hchange
    · exact .inr hp
  case issue =>
    intro cmd s
    obtain ⟨rstat, rop, rcrc, rframe, h⟩ := performIssue_next cmd s
    exact ⟨_, h, writeLatch_pending .., writeLatch_position .., writeLatch_replies .., writeLatch_resetCount ..⟩

end Sys2Proof.Proofs

/-! SUPPORT and the statements of 30_encoding.md. What `decode` answers is said once per opcode, the operands as slices
of the command word. A slice of a concatenation is a slice of one of its parts, so a word's operands do not meet the bits
that R63 ignores; and the encoder's zeros lie where the mask of used bits has zeros. -/

namespace Sys2Proof.Proofs

open Sys2Proof Sys2Proof.Machine Sys2Proof.Spec

/-! ### What the decoder answers at each opcode (30_encoding.md R57 to R61) -/

section DecodeAtOpcode

variable {cmd : Command}

theorem decode_of_crc8 (h : opField cmd = 0x1#4) : decode cmd = .ok (.crc8 (cmd.extractLsb' 8 24)) := by
  simp [decode, h, plField_extractLsb']

theorem decode_of_build (h : opField cmd = 0x2#4) :
    decode cmd = .ok (.build (cmd.extractLsb' 24 7) (cmd.extractLsb' 8 16)) := by
  simp [decode, h, plField_extractLsb']

theorem decode_of_validate (h : opField cmd = 0x3#4) : decode cmd = .ok (.validate (plField cmd) (eaField cmd)) := by
  simp [decode, h]

theorem decode_of_extract (h : opField cmd = 0x4#4) :
    decode cmd = .ok (.extract (cmd.extractLsb' 16 16) (cmd.extractLsb' 0 16) (eaField cmd)) := by
  simp [decode, h, plField_extractLsb']

theorem decode_of_reserved (h : opcodeLegal (opField cmd) = false) :
    decode cmd = .error (.illegalCommand (opField cmd)) := by
  simp only [opcodeLegal, Bool.or_eq_false_iff, beq_eq_false_iff_ne] at h
  obtain ⟨⟨⟨h1, h2⟩, h3⟩, h4⟩ := h
  simp [decode, h1, h2, h3, h4]

/-- A word with an opcode of the table is a command, whatever its other bits (R64). -/
theorem exists_decode_of_legal (h : opcodeLegal (opField cmd) = true) : ∃ i, decode cmd = .ok i := by
  simp only [opcodeLegal, Bool.or_eq_true, beq_iff_eq] at h
  rcases h with ((h | h) | h) | h
  · exact ⟨_, decode_of_crc8 h⟩
  · exact ⟨_, decode_of_build h⟩
  · exact ⟨_, decode_of_validate h⟩
  · exact ⟨_, decode_of_extract h⟩

end DecodeAtOpcode

theorem opcodeLegal_eq_true_iff (op : Opcode) : opcodeLegal op = true ↔ 1 ≤ op.toNat ∧ op.toNat ≤ 4 := by
  revert op; decide

/-! ### ISSUE through the decoder (60_exceptions.md R101, R108) -/

section Issue

variable {cmd cmd' : Command} {i : Instr} {op : Opcode}

theorem performIssue_of_ok (h : decode cmd = .ok i) (s : State) : performIssue cmd s = exec i s := by
  rw [performIssue, h]

theorem performIssue_of_illegal (h : decode cmd = .error (.illegalCommand op)) (s : State) :
    performIssue cmd s = .next (takeIllegal op s) := by
  rw [performIssue, h]

/-- The decoder's answer is all that an ISSUE takes from the command word. -/
theorem performIssue_congr (h : decode cmd = decode cmd') (s : State) : performIssue cmd s = performIssue cmd' s := by
  rw [performIssue, h, performIssue]

end Issue

/-! ### Command words put together from their parts, ignored bits included (R56, R63) -/

section Words

variable (op : Opcode) (r r' : BitVec 5)

theorem opField_append (rest : BitVec 39) : opField (op ++ r ++ rest) = op := by
  rw [opField, BitVec.extractLsb'_append_eq_of_le (by decide)]
  exact BitVec.extractLsb'_append_eq_left

/-- Below RSV a word is its low 39 bits. -/
theorem extractLsb'_below_rsv (rest : BitVec 39) {start len : Nat} (h : start + len ≤ 39) :
    (op ++ r ++ rest : Command).extractLsb' start len = rest.extractLsb' start len :=
  BitVec.extractLsb'_append_eq_of_add_le h

theorem eaField_append (rest : BitVec 39) : eaField (op ++ r ++ rest) = rest.extractLsb' 32 7 :=
  extractLsb'_below_rsv op r rest (by decide)

theorem plField_append (rest : BitVec 39) : plField (op ++ r ++ rest) = rest.extractLsb' 0 32 :=
  extractLsb'_below_rsv op r rest (by decide)

/-- The decoder reads OP, EA and PL, and none of them meets RSV. -/
theorem decode_ignores_rsv (rest : BitVec 39) : decode (op ++ r ++ rest) = decode (op ++ r' ++ rest) := by
  simp only [decode, opField_append, eaField_append, plField_append]

/-- OP and RSV apart, EA and PL are the other 39 bits (R56). -/
theorem append_ea_pl (ea : Address) (pl : Frame) : (op ++ r ++ ea ++ pl : Command) = op ++ r ++ (ea ++ pl) :=
  BitVec.append_assoc

/-- Whatever stands in RSV, EA and PL[7:0], the command is CRC8 of the message. -/
theorem decode_crc8_word (ea : Address) (m : Message) (x : Byte) :
    decode (0x1#4 ++ r ++ ea ++ m ++ x) = .ok (.crc8 m) := by
  have hop : opField (0x1#4 ++ r ++ ea ++ m ++ x) = 0x1#4 := by
    unfold opField
    iterate 4 rw [BitVec.extractLsb'_append_eq_of_le (by decide)]
    exact BitVec.extractLsb'_eq_self
  rw [decode_of_crc8 hop, BitVec.extractLsb'_append_eq_of_le (by decide), BitVec.extractLsb'_append_eq_right]

/-- Whatever stands in RSV, EA, PL[31] and PL[7:0], the command is BUILD of the address and the data. -/
theorem decode_build_word (ea : Address) (b : BitVec 1) (a : Address) (d : Half) (x : Byte) :
    decode (0x2#4 ++ r ++ ea ++ b ++ a ++ d ++ x) = .ok (.build a d) := by
  have hop : opField (0x2#4 ++ r ++ ea ++ b ++ a ++ d ++ x) = 0x2#4 := by
    unfold opField
    iterate 6 rw [BitVec.extractLsb'_append_eq_of_le (by decide)]
    exact BitVec.extractLsb'_eq_self
  have haddr : (0x2#4 ++ r ++ ea ++ b ++ a ++ d ++ x : Command).extractLsb' 24 7 = a := by
    iterate 2 rw [BitVec.extractLsb'_append_eq_of_le (by decide)]
    exact BitVec.extractLsb'_append_eq_right
  have hdata : (0x2#4 ++ r ++ ea ++ b ++ a ++ d ++ x : Command).extractLsb' 8 16 = d := by
    rw [BitVec.extractLsb'_append_eq_of_le (by decide)]
    exact BitVec.extractLsb'_append_eq_right
  rw [decode_of_build hop, haddr, hdata]

end Words

/-! ### What the encoder writes (R66) -/

/-- A word with RSV = 0 has nothing outside a mask that covers OP, where EA and PL have nothing outside it. -/
theorem commandWord_and_eq_zero (op : Opcode) {ea ea' : Address} {pl pl' : Frame} (hea : ea &&& ea' = 0#7)
    (hpl : pl &&& pl' = 0#32) : commandWord op ea pl &&& (0#4 ++ BitVec.allOnes 5 ++ ea' ++ pl') = 0#48 := by
  rw [commandWord, BitVec.and_append, BitVec.and_append, BitVec.and_append, hea, hpl, BitVec.and_zero,
    BitVec.zero_and]
  rfl

/-- The bits outside `usedBits`, field by field (R63): RSV, EA and PL[7:0] in CRC8. -/
theorem ignoredBits_crc8 :
    ~~~0xF000FFFFFF00#48 = 0#4 ++ BitVec.allOnes 5 ++ BitVec.allOnes 7 ++ (0#24 ++ BitVec.allOnes 8) := by decide

/-- In BUILD: RSV, EA, PL[31] and PL[7:0]. -/
theorem ignoredBits_build :
    ~~~0xF0007FFFFF00#48 =
      0#4 ++ BitVec.allOnes 5 ++ BitVec.allOnes 7 ++ (BitVec.allOnes 1 ++ 0#7 ++ 0#16 ++ BitVec.allOnes 8) := by decide

/-- In VALIDATE and EXTRACT: RSV alone. -/
theorem ignoredBits_checking : ~~~0xF07FFFFFFFFF#48 = 0#4 ++ BitVec.allOnes 5 ++ 0#7 ++ 0#32 := by decide

/-- The encoder writes 0 in every bit that the command ignores (R63). -/
theorem encode_and_not_usedBits (i : Instr) : encode i &&& ~~~(usedBits i) = 0#48 := by
  cases i with
  | crc8 m =>
    rw [usedBits, ignoredBits_crc8]
    refine commandWord_and_eq_zero _ BitVec.zero_and ?_
    rw [BitVec.and_append, BitVec.and_zero, BitVec.zero_and, BitVec.zero_append_zero]
  | build addr data =>
    rw [usedBits, ignoredBits_build]
    refine commandWord_and_eq_zero _ BitVec.zero_and ?_
    rw [BitVec.and_append, BitVec.and_append, BitVec.and_append, BitVec.zero_and, BitVec.and_zero, BitVec.and_zero,
      BitVec.zero_and]
    rfl
  | validate f ea =>
    rw [usedBits, ignoredBits_checking]
    exact commandWord_and_eq_zero _ BitVec.and_zero BitVec.and_zero
  | extract msbw lsbw ea =>
    rw [usedBits, ignoredBits_checking]
    exact commandWord_and_eq_zero _ BitVec.and_zero BitVec.and_zero

/-- A command decodes from its encoding. -/
theorem decode_encode (i : Instr) : decode (encode i) = .ok i := by
  cases i with
  | crc8 m =>
    rw [encode, decode_of_crc8 (opField_commandWord ..), ← plField_extractLsb' _ (by decide), plField_commandWord,
      BitVec.extractLsb'_append_eq_left]
  | build addr data =>
    rw [encode, decode_of_build (opField_commandWord ..), ← plField_extractLsb' _ (by decide),
      ← plField_extractLsb' _ (by decide), plField_commandWord, BitVec.extractLsb'_append_eq_of_le (by decide),
      BitVec.extractLsb'_append_eq_of_le (by decide), BitVec.extractLsb'_append_eq_right,
      BitVec.extractLsb'_append_eq_of_le (by decide), BitVec.extractLsb'_append_eq_right]
  | validate f ea =>
    rw [encode, decode_of_validate (opField_commandWord ..), plField_commandWord, eaField_commandWord]
  | extract msbw lsbw ea =>
    rw [encode, decode_of_extract (opField_commandWord ..), eaField_commandWord, ← plField_extractLsb' _ (by decide),
      ← plField_extractLsb' _ (by decide), plField_commandWord, BitVec.extractLsb'_append_eq_left,
      BitVec.extractLsb'_append_eq_right]

/-! ### The statements -/

/-- Settles O10: the decoder's answer at each opcode. -/
theorem opcodeSelectsCommandAndOperands : Obligations.OpcodeSelectsCommandAndOperands := by
  intro cmd
  refine ⟨decode_of_crc8, decode_of_build, decode_of_validate, decode_of_extract, fun h => ?reserved⟩
  case reserved => exact decode_of_reserved ((opcodeLegal_eq_false_iff _).2 h)

/-- Settles O11: an opcode is reserved or of the table, and an ISSUE follows the decoder's answer. -/
theorem exactlyReservedOpcodesAreIllegal : Obligations.ExactlyReservedOpcodesAreIllegal := by
  intro cmd s
  refine ⟨fun h => ?reserved, fun h => ?legal⟩
  case reserved =>
    have hd := decode_of_reserved ((opcodeLegal_eq_false_iff (opField cmd)).2 h)
    exact ⟨hd, performIssue_of_illegal hd s⟩
  case legal =>
    obtain ⟨i, hd⟩ := exists_decode_of_legal ((opcodeLegal_eq_true_iff (opField cmd)).2 h)
    exact ⟨i, hd, performIssue_of_ok hd s⟩

/-- Settles O12: words that differ in ignored bits alone decode to the same, which is all an ISSUE takes from them. -/
theorem ignoredBitsChangeNothing : Obligations.IgnoredBitsChangeNothing := by
  refine ⟨?crc8, ?build, ?checking, ?rsv, encode_and_not_usedBits⟩
  case crc8 =>
    intro r r' ea ea' m x x' s
    exact performIssue_congr ((decode_crc8_word r ea m x).trans (decode_crc8_word r' ea' m x').symm) s
  case build =>
    intro r r' ea ea' b b' a d x x' s
    exact performIssue_congr ((decode_build_word r ea b a d x).trans (decode_build_word r' ea' b' a d x').symm) s
  case checking =>
    intro r r' ea f s
    simp only [append_ea_pl]
    exact ⟨performIssue_congr (decode_ignores_rsv _ r r' _) s, performIssue_congr (decode_ignores_rsv _ r r' _) s⟩
  case rsv =>
    intro op r r' rest s
    exact performIssue_congr (decode_ignores_rsv op r r' rest) s

/-- Settles O15: each line's operands fit, its word is the encoding of its command, and OP = 0 is reserved. -/
theorem workedEncodingsOfTheSpec : Obligations.WorkedEncodingsOfTheSpec :=
  ⟨rfl, rfl, rfl, rfl, rfl, decode_encode (.crc8 0x41002E#24), decode_encode (.build 0x41#7 0x002E#16),
    decode_encode (.validate 0xAEA0209C#32 0x2E#7), decode_encode (.extract 0xAEA0#16 0x209C#16 0x2E#7),
    decode_of_reserved rfl⟩

end Sys2Proof.Proofs

/-! SUPPORT and the statements of 40_crc.md. A bit vector stands for a residue modulo the generator (`residue`). An XOR is a
sum of residues and an append a multiplication by a power of `x`; a step of either form of the CRC keeps the residue or
multiplies it by `x`; and two bytes with one residue are equal, as the generator has degree 8 (`residue_inj`). So each
form of the CRC is found by an equation between residues, with no case split on bits. -/

namespace Sys2Proof.Proofs

open Sys2Proof Sys2Proof.Machine Sys2Proof.Spec Polynomial

/-! ### Bit vectors as polynomials over GF(2) -/

theorem coeff_polyOf {w : Nat} (v : BitVec w) (k : Nat) : (polyOf v).coeff k = if v.getLsbD k then 1 else 0 := by
  have hterm : ∀ j, (if v.getLsbD j then (X ^ j : (ZMod 2)[X]) else 0).coeff k =
      if k = j then (if v.getLsbD k then 1 else 0) else 0 := by
    intro j
    by_cases hj : k = j
    · subst hj
      cases v.getLsbD k <;> simp
    · cases v.getLsbD j <;> simp [coeff_X_pow, hj]
  simp only [polyOf, finsetSum_coeff, hterm, Finset.sum_ite_eq, Finset.mem_range]
  by_cases hk : k < w
  · rw [if_pos hk]
  · simp [BitVec.getLsbD_of_ge v k (by omega)]

@[simp] theorem polyOf_zero (w : Nat) : polyOf 0#w = 0 := by simp [polyOf]

theorem degree_polyOf_lt {w : Nat} (v : BitVec w) : (polyOf v).degree < w := by
  rw [degree_lt_iff_coeff_zero]
  intro k hk
  simp [coeff_polyOf, BitVec.getLsbD_of_ge v k hk]

theorem polyOf_injective {w : Nat} {a b : BitVec w} (h : polyOf a = polyOf b) : a = b := by
  refine BitVec.eq_of_getLsbD_eq fun k _ => ?_
  have hk := congrArg (fun p => p.coeff k) h
  simp only [coeff_polyOf] at hk
  revert hk
  cases a.getLsbD k <;> cases b.getLsbD k <;> simp

theorem polyOf_xor {w : Nat} (a b : BitVec w) : polyOf (a ^^^ b) = polyOf a + polyOf b := by
  ext k
  rw [coeff_add, coeff_polyOf, coeff_polyOf, coeff_polyOf, BitVec.getLsbD_xor]
  cases a.getLsbD k <;> cases b.getLsbD k <;> simp [CharTwo.add_self_eq_zero]

theorem polyOf_append {w v : Nat} (a : BitVec w) (b : BitVec v) : polyOf (a ++ b) = polyOf a * X ^ v + polyOf b := by
  ext k
  rw [coeff_add, coeff_mul_X_pow', coeff_polyOf, coeff_polyOf, coeff_polyOf, BitVec.getLsbD_append]
  by_cases hk : k < v
  · simp [hk]
  · simp [hk, show v ≤ k by omega]

/-- A left shift multiplies by `x^k` and takes off the bits shifted out. -/
theorem polyOf_shiftLeft {w k : Nat} (v : BitVec w) (hk : k ≤ w) :
    polyOf (v <<< k) = polyOf v * X ^ k + polyOf (v >>> (w - k)) * X ^ w := by
  ext j
  rw [coeff_add, coeff_mul_X_pow', coeff_mul_X_pow', coeff_polyOf, coeff_polyOf, coeff_polyOf, BitVec.getLsbD_shiftLeft,
    BitVec.getLsbD_ushiftRight]
  by_cases hj : j < w
  · by_cases hkj : j < k
    · simp [hj, hkj, Nat.not_le.2 hj, Nat.not_le.2 hkj]
    · simp [hj, hkj, Nat.not_le.2 hj, Nat.not_lt.1 hkj]
  · have hout : w - k + (j - w) = j - k := by omega
    simp [hj, hout, show k ≤ j by omega, show w ≤ j by omega, CharTwo.add_self_eq_zero]

/-! ### The generator (40_crc.md R71) -/

theorem polyOf_crcGenerator : polyOf crcGenerator = generator := by
  have hbits : polyOf crcGenerator = 1 + X + X ^ 2 + X ^ 8 := by simp [polyOf, crcGenerator, Finset.sum_range_succ]
  rw [hbits, generator]
  ring

/-- The constant 0x07 of R74 is the generator without its leading term. -/
theorem generator_eq_polyOf : generator = X ^ 8 + polyOf 0x07#8 := by
  have hbits : polyOf 0x07#8 = 1 + X + X ^ 2 := by simp [polyOf, Finset.sum_range_succ]
  rw [hbits, generator]
  ring

theorem degree_generator : generator.degree = 8 := by
  unfold generator
  compute_degree!

/-! ### Residues modulo the generator -/

/-- A bit vector's polynomial modulo the generator. -/
noncomputable def residue {w : Nat} (v : BitVec w) : AdjoinRoot generator := AdjoinRoot.mk generator (polyOf v)

/-- The residue of `x`. -/
noncomputable def residueX : AdjoinRoot generator := AdjoinRoot.root generator

theorem mk_X_pow (n : Nat) : AdjoinRoot.mk generator (X ^ n) = residueX ^ n := by
  rw [map_pow, AdjoinRoot.mk_X, residueX]

@[simp] theorem residue_zero (w : Nat) : residue 0#w = 0 := by rw [residue, polyOf_zero, map_zero]

theorem residue_xor {w : Nat} (a b : BitVec w) : residue (a ^^^ b) = residue a + residue b := by
  rw [residue, polyOf_xor, map_add, residue, residue]

theorem residue_append {w v : Nat} (a : BitVec w) (b : BitVec v) :
    residue (a ++ b) = residue a * residueX ^ v + residue b := by
  rw [residue, polyOf_append, map_add, map_mul, mk_X_pow, residue, residue]

/-- Polynomials of degree below 8 with the same residue are equal: the uniqueness of R73. -/
theorem eq_of_mk_eq_mk {p q : (ZMod 2)[X]} (hp : p.degree < 8) (hq : q.degree < 8)
    (h : AdjoinRoot.mk generator p = AdjoinRoot.mk generator q) : p = q := by
  have hdeg : (p - q).degree < generator.degree := by
    rw [degree_generator]
    exact (degree_sub_le p q).trans_lt (max_lt hp hq)
  exact sub_eq_zero.1 (eq_zero_of_dvd_of_degree_lt (AdjoinRoot.mk_eq_mk.1 h) hdeg)

/-- Bytes with the same residue are equal. -/
theorem residue_inj {a b : Byte} : residue a = residue b ↔ a = b :=
  ⟨fun h => polyOf_injective (eq_of_mk_eq_mk (degree_polyOf_lt a) (degree_polyOf_lt b) h), congrArg residue⟩

/-! ### The loop (R70, R72) -/

theorem residue_crcGenerator_shiftLeft {k : Nat} (hk : k ≤ 23) : residue (crcGenerator <<< k) = 0 := by
  have hout : ∀ k, k ≤ 23 → crcGenerator >>> (32 - k) = 0#32 := by decide
  rw [residue, polyOf_shiftLeft _ (by omega), hout k hk, polyOf_crcGenerator, polyOf_zero, zero_mul, add_zero,
    AdjoinRoot.mk_eq_zero]
  exact dvd_mul_right _ _

theorem residue_crcStep (acc : BitVec 32) {i : Nat} (hi : i ≤ 31) : residue (crcStep acc i) = residue acc := by
  unfold crcStep
  split
  · rw [residue_xor, residue_crcGenerator_shiftLeft (by omega), add_zero]
  · rfl

theorem residue_crcLoop {n : Nat} (hn : n ≤ 24) (acc : BitVec 32) : residue (crcLoop n acc) = residue acc := by
  induction n generalizing acc with
  | zero => rfl
  | succ n ih => rw [crcLoop_succ, ih (by omega), residue_crcStep acc (by omega)]

/-- The generator's leading bit, shifted, stands at the bit that a step tests. -/
theorem getLsbD_crcGenerator_shiftLeft_self {i : Nat} (h8 : 8 ≤ i) (h31 : i ≤ 31) :
    (crcGenerator <<< (i - 8)).getLsbD i = true := by
  have hlead : crcGenerator.getLsbD 8 = true := by decide
  simp [show i < 32 by omega, show i - (i - 8) = 8 by omega, show ¬ i < i - 8 by omega, hlead]

theorem getLsbD_crcGenerator_shiftLeft_above {i j : Nat} (h8 : 8 ≤ i) (hj : i < j) :
    (crcGenerator <<< (i - 8)).getLsbD j = false := by
  have hhigh : crcGenerator.getLsbD (j - (i - 8)) = false :=
    Nat.testBit_lt_two_pow (show 0x107 < 2 ^ 9 by decide |>.trans_le (Nat.pow_le_pow_right (by decide) (by omega)))
  simp [hhigh]

theorem getLsbD_crcStep_self (acc : BitVec 32) {i : Nat} (h8 : 8 ≤ i) (h31 : i ≤ 31) :
    (crcStep acc i).getLsbD i = false := by
  unfold crcStep
  split
  next hbit => rw [BitVec.getLsbD_xor, hbit, getLsbD_crcGenerator_shiftLeft_self h8 h31, Bool.xor_self]
  next hbit => exact Bool.eq_false_of_not_eq_true hbit

theorem getLsbD_crcStep_above (acc : BitVec 32) {i j : Nat} (h8 : 8 ≤ i) (hj : i < j) :
    (crcStep acc i).getLsbD j = acc.getLsbD j := by
  unfold crcStep
  split
  · rw [BitVec.getLsbD_xor, getLsbD_crcGenerator_shiftLeft_above h8 hj, Bool.xor_false]
  · rfl

/-- Where the bits above those it tests are clear, the loop leaves bits 31:8 clear. -/
theorem getLsbD_crcLoop_high {n : Nat} (hn : n ≤ 24) {acc : BitVec 32} (hacc : ∀ j, n + 8 ≤ j → acc.getLsbD j = false)
    {j : Nat} (hj : 8 ≤ j) : (crcLoop n acc).getLsbD j = false := by
  induction n generalizing acc with
  | zero => exact hacc j (by omega)
  | succ n ih =>
    rw [crcLoop_succ]
    refine ih (by omega) fun j hj => ?_
    rcases Nat.eq_or_lt_of_le hj with rfl | hlt
    · exact getLsbD_crcStep_self acc (by omega) (by omega)
    · rw [getLsbD_crcStep_above acc (by omega) hlt]
      exact hacc j (by omega)

theorem crcLoop_eq_append_rem32 (f : Frame) : crcLoop 24 f = 0#24 ++ rem32 f := by
  refine BitVec.eq_of_getLsbD_eq fun j _ => ?_
  rw [BitVec.getLsbD_append]
  by_cases hj : j < 8
  · simp [hj, rem32]
  · have hclear : (crcLoop 24 f).getLsbD j = false :=
      getLsbD_crcLoop_high le_rfl (fun k hk => BitVec.getLsbD_of_ge f k hk) (by omega)
    simp [hj, hclear]

/-- R77: the loop leaves a frame's remainder. -/
theorem residue_rem32 (f : Frame) : residue (rem32 f) = residue f := by
  rw [← residue_crcLoop le_rfl f, crcLoop_eq_append_rem32, residue_append, residue_zero, zero_mul, zero_add]

/-- R73: the CRC is congruent to `m(x)·x^8`. -/
theorem residue_crc8 (m : Message) : residue (crc8 m) = residue m * residueX ^ 8 := by
  rw [crc8, residue_rem32, residue_append, residue_zero, add_zero]

/-- The loop's positions counted from the top, as R70 writes them. -/
theorem crcLoop_eq_foldl (n : Nat) (acc : BitVec 32) :
    crcLoop n acc = (List.range n).foldl (fun acc k => crcStep acc (n + 7 - k)) acc := by
  induction n generalizing acc with
  | zero => rfl
  | succ n ih =>
    have hpos : ∀ k, n + 1 + 7 - (k + 1) = n + 7 - k := by omega
    rw [crcLoop_succ, ih, List.range_succ_eq_map, List.foldl_cons, List.foldl_map]
    simp only [Nat.succ_eq_add_one, hpos]
    rfl

/-! ### The byte-wise form (R74) -/

/-- The bit that a round of the bit-serial form shifts out. -/
theorem byte_shiftRight_seven (c : Byte) : c >>> 7 = if c.getLsbD 7 then 0x01#8 else 0x00#8 := by
  revert c; decide +kernel

theorem polyOf_byte_shiftLeft_one (c : Byte) :
    polyOf (c <<< 1) = polyOf c * X + if c.getLsbD 7 then X ^ 8 else 0 := by
  have hone : polyOf 0x01#8 = 1 := by simp [polyOf]
  rw [polyOf_shiftLeft c (by decide), byte_shiftRight_seven, pow_one]
  cases c.getLsbD 7 <;> simp [hone]

/-- One round of the bit-serial form multiplies by `x`: what it shifts out, it adds again modulo the generator. -/
theorem residue_crcShift_round (c : Byte) :
    residue (if c.getLsbD 7 then (c <<< 1) ^^^ 0x07#8 else c <<< 1) = residue c * residueX := by
  have hshift : polyOf (if c.getLsbD 7 then (c <<< 1) ^^^ 0x07#8 else c <<< 1) =
      polyOf c * X + if c.getLsbD 7 then generator else 0 := by
    by_cases hbit : c.getLsbD 7
    · simp only [if_pos hbit, polyOf_xor, polyOf_byte_shiftLeft_one, generator_eq_polyOf, add_assoc]
    · simp only [if_neg hbit, polyOf_byte_shiftLeft_one]
  rw [residue, hshift, map_add, map_mul, AdjoinRoot.mk_X, apply_ite (AdjoinRoot.mk generator), AdjoinRoot.mk_self,
    map_zero, ite_self, add_zero, residue, residueX]

theorem residue_crcShift (n : Nat) (c : Byte) : residue (crcShift n c) = residue c * residueX ^ n := by
  induction n generalizing c with
  | zero => rw [crcShift, pow_zero, mul_one]
  | succ n ih => rw [crcShift, ih, residue_crcShift_round, mul_assoc, ← pow_succ']

theorem residue_crcByte (v : Byte) : residue (crcByte v) = residue v * residueX ^ 8 := residue_crcShift 8 v

theorem message_eq_append (m : Message) : m.extractLsb' 16 8 ++ m.extractLsb' 8 8 ++ m.extractLsb' 0 8 = m := by
  have hhigh : m.extractLsb' 16 8 ++ m.extractLsb' 8 8 = m.extractLsb' 8 16 :=
    BitVec.extractLsb'_append_extractLsb'_eq_extractLsb' rfl
  rw [hhigh]
  exact (BitVec.extractLsb'_append_extractLsb'_eq_extractLsb' rfl).trans BitVec.extractLsb'_eq_self

/-- Three bytes through `T` are Horner's rule for the message's residue. -/
theorem residue_crcBytewise (m : Message) : residue (crcBytewise m) = residue m * residueX ^ 8 := by
  rw [crcBytewise, residue_crcByte, residue_xor, residue_crcByte, residue_xor, residue_crcByte, ← residue_append,
    ← residue_append, message_eq_append]

theorem crc8_eq_crcBytewise (m : Message) : crc8 m = crcBytewise m :=
  residue_inj.1 ((residue_crc8 m).trans (residue_crcBytewise m).symm)

theorem crcByte_eq_crc8 (v : Byte) : crcByte v = crc8 (v.setWidth 24) := by
  have hext : v.setWidth 24 = 0#16 ++ v := by
    rw [BitVec.append_def]
    simp
  rw [← residue_inj, residue_crcByte, residue_crc8, hext, residue_append, residue_zero, zero_mul, zero_add]

/-- The rule's table, entry by entry. -/
theorem crcByte_eq_crcTableEntry (v : Byte) : crcByte v = crcTableEntry v := by
  revert v; decide +kernel

/-! ### The basis (R75) -/

theorem crc8_zero : crc8 0x000000#24 = 0x00#8 := by rw [← residue_inj, residue_crc8, residue_zero, residue_zero, zero_mul]

theorem crcBasis_getElem? {k : Nat} (hk : k < 24) : crcBasis[k]? = some (crc8 (1#24 <<< k)) := by
  revert k; decide +kernel

/-- The message's bits below `n + 1` are those below `n` and bit `n`. -/
theorem message_low_succ (m : Message) {n : Nat} (hn : n < 24) :
    (m.setWidth (n + 1)).setWidth 24 = (m.setWidth n).setWidth 24 ^^^ if m.getLsbD n then 1#24 <<< n else 0#24 := by
  refine BitVec.eq_of_getLsbD_eq fun j hj => ?_
  have hbit : (if m.getLsbD n then 1#24 <<< n else 0#24).getLsbD j = (decide (n = j) && m.getLsbD n) := by
    rw [← BitVec.twoPow_eq]
    cases m.getLsbD n <;> simp [BitVec.getLsbD_twoPow, hn]
  simp only [BitVec.getLsbD_xor, BitVec.getLsbD_setWidth, hj, hbit]
  rcases Nat.lt_trichotomy j n with h | rfl | h
  · simp [h, h.ne', show j < n + 1 by omega]
  · simp
  · simp [h.ne, show ¬ j < n + 1 by omega, show ¬ j < n by omega]

/-- By linearity, the CRC of the bits below `n` is the XOR of their basis entries. -/
theorem foldl_crcBasis_eq_crc8_low (m : Message) {n : Nat} (hn : n ≤ 24) :
    (List.range n).foldl (fun c k => if m.getLsbD k then c ^^^ crcBasis.getD k 0#8 else c) 0#8 =
      crc8 ((m.setWidth n).setWidth 24) := by
  induction n with
  | zero => rw [BitVec.of_length_zero (x := m.setWidth 0)]; exact crc8_zero.symm
  | succ n ih =>
    have hentry : crcBasis.getD n 0#8 = crc8 (1#24 <<< n) := by
      rw [List.getD_eq_getElem?_getD, crcBasis_getElem? hn, Option.getD_some]
    rw [List.range_succ, List.foldl_append, List.foldl_cons, List.foldl_nil, ih (by omega), message_low_succ m hn, crc8_xor,
      hentry]
    cases m.getLsbD n <;> simp [crc8_zero]

theorem toNat_crcGenerator_shiftLeft {k : Nat} (hk : k ≤ 23) : (crcGenerator <<< k).toNat = 0x107 * 2 ^ k := by
  have hfit : 0x107 * 2 ^ k < 2 ^ 32 :=
    calc 0x107 * 2 ^ k ≤ 0x107 * 2 ^ 23 := Nat.mul_le_mul_left _ (Nat.pow_le_pow_right (by decide) hk)
      _ < 2 ^ 32 := by decide
  rw [BitVec.toNat_shiftLeft, Nat.shiftLeft_eq]
  exact Nat.mod_eq_of_lt hfit

/-! ### The command CRC8 (R76) -/

/-- The worked check of R74 and the example of R76. -/
theorem crc8_example : crc8 0x41002E#24 = 0x27#8 := by decide +kernel

/-- R76: CRC8 writes the message's CRC and well-formed frame. -/
theorem exec_crc8 (m : Message) (s : State) :
    exec (.crc8 m) s = .next { s with rstat := 0x80#8, rop := 0x1#4, rcrc := crc8 m, rframe := m ++ crc8 m } := rfl

/-! ### The statements -/

/-- Settles O3: the CRC has degree below 8 and the right residue, and no other polynomial has both. -/
theorem crc8IsThePolynomialRemainder : Obligations.Crc8IsThePolynomialRemainder := by
  intro m c
  have hcrc : AdjoinRoot.mk generator (polyOf m * X ^ 8) = residue (crc8 m) := by
    rw [map_mul, mk_X_pow, residue_crc8, residue]
  rw [← AdjoinRoot.mk_eq_mk, hcrc]
  constructor
  · rintro ⟨hdeg, hmk⟩
    exact eq_of_mk_eq_mk hdeg (degree_polyOf_lt _) hmk.symm
  · rintro rfl
    exact ⟨degree_polyOf_lt _, rfl⟩

/-- Settles O4: both forms multiply the residue by `x^8`, and the table is checked entry by entry. -/
theorem bytewiseCrcEqualsTheLoop : Obligations.BytewiseCrcEqualsTheLoop := by
  refine ⟨crc8_eq_crcBytewise, fun v => ⟨crcByte_eq_crc8 v, crcByte_eq_crcTableEntry v, degree_polyOf_lt _, ?dvd⟩, ?check⟩
  case dvd =>
    rw [← AdjoinRoot.mk_eq_mk, map_mul, mk_X_pow]
    exact (residue_crcByte v).symm
  case check => exact ⟨by decide, by decide, by decide, crc8_example⟩

/-- Settles O5: linearity of the loop gives the XOR over the set bits from the basis. -/
theorem crcIsLinearWithTheBasisTable : Obligations.CrcIsLinearWithTheBasisTable := by
  refine ⟨crc8_xor, crc8_zero, fun k => crcBasis_getElem?, fun m => ?setBits, fun k => toNat_crcGenerator_shiftLeft, rfl⟩
  case setBits => rw [foldl_crcBasis_eq_crc8_low m le_rfl, BitVec.setWidth_eq, BitVec.setWidth_eq]

/-- Settles O6: a frame's residue is that of its CRC byte and of the CRC of the bytes above it. -/
theorem frameRemainderIsCrcXorCrcByte : Obligations.FrameRemainderIsCrcXorCrcByte := by
  intro f
  have hframe : f.extractLsb' 8 24 ++ f.extractLsb' 0 8 = f :=
    (BitVec.extractLsb'_append_extractLsb'_eq_extractLsb' rfl).trans BitVec.extractLsb'_eq_self
  have hrem : rem32 f = crc8 (f.extractLsb' 8 24) ^^^ f.extractLsb' 0 8 := by
    rw [← residue_inj, residue_xor, residue_crc8, ← residue_append, hframe, residue_rem32]
  exact ⟨hrem, by rw [hrem, BitVec.xor_eq_zero_iff, eq_comm]⟩

/-- Settles O1: the loop's steps, counted from the top. -/
theorem crc8IsTheLoopOfBits31DownTo8 : Obligations.Crc8IsTheLoopOfBits31DownTo8 :=
  fun m => congrArg (BitVec.extractLsb' 0 8) (crcLoop_eq_foldl 24 (m ++ 0#8))

/-- Settles O17: an ISSUE of any word with OP 1 is CRC8 of its message, whose meaning writes the latch alone. -/
theorem crc8CommandResult : Obligations.Crc8CommandResult := by
  refine ⟨exec_crc8, fun r ea m x s => ?word, ⟨crc8_zero, by decide +kernel, fun k => crcBasis_getElem?⟩, fun s => ?check⟩
  case word => exact performIssue_of_ok (decode_crc8_word r ea m x) s
  case check =>
    have hdecode : decode 0x100041002E00#48 = .ok (.crc8 0x41002E#24) := decode_crc8_word 0#5 0#7 0x41002E#24 0#8
    rw [performIssue_of_ok hdecode, exec_crc8, crc8_example]
    rfl

end Sys2Proof.Proofs

/-! SUPPORT and the statements of 41_frame.md. Each command's meaning is one latch write in the spec's own fields. Two
facts carry the rest: the RSTAT of a checking command is `packRstat` of the three frame checks, so each flag reports its
own check; and a frame made of a status bit, an address, data and their CRC passes the address and CRC checks, so its
status bit alone decides whether it validates. -/

namespace Sys2Proof.Proofs

open Sys2Proof Sys2Proof.Machine Sys2Proof.Spec

/-! ### The fields of a frame put together from its parts (20_memory.md R42 to R44) -/

section FrameParts

theorem messageOf_append (m : Message) (c : Byte) : messageOf (m ++ c) = m := BitVec.extractLsb'_append_eq_left

theorem crcField_append (m : Message) (c : Byte) : crcField (m ++ c) = c := BitVec.extractLsb'_append_eq_right

variable (b : BitVec 1) (a : Address) (d : Half) (c : Byte)

theorem statusBit_append : statusBit (b ++ a ++ d ++ c) = b.getLsbD 0 := by
  unfold statusBit
  iterate 3 rw [BitVec.getLsbD_append]
  rfl

theorem addressField_append : addressField (b ++ a ++ d ++ c) = a := by
  unfold addressField
  iterate 2 rw [BitVec.extractLsb'_append_eq_of_le (by decide)]
  exact BitVec.extractLsb'_append_eq_right

theorem append_address_data : b ++ a ++ d = b ++ (a ++ d) := BitVec.append_assoc

/-- Below the status bit, a message is the address and the data. -/
theorem extractLsb'_below_statusBit : (b ++ a ++ d ++ c : Frame).extractLsb' 8 23 = a ++ d := by
  rw [BitVec.extractLsb'_append_eq_of_le (by decide), append_address_data]
  exact BitVec.extractLsb'_append_eq_right

/-- A frame's two words, cut instead between the message and the CRC byte. -/
theorem append_words_eq (h l : Half) : h ++ l = h ++ l.extractLsb' 8 8 ++ l.extractLsb' 0 8 := by
  have hl : l.extractLsb' 8 8 ++ l.extractLsb' 0 8 = l :=
    (BitVec.extractLsb'_append_extractLsb'_eq_extractLsb' rfl).trans BitVec.extractLsb'_eq_self
  exact (congrArg (h ++ ·) hl).symm.trans BitVec.append_assoc.symm

/-- The slices of a frame that the checks look at, from its two words. -/
theorem slices_append_words (h l : Half) :
    (h ++ l).extractLsb' 31 1 = h.extractLsb' 15 1 ∧ (h ++ l).extractLsb' 24 7 = h.extractLsb' 8 7 ∧
    (h ++ l).extractLsb' 8 24 = h ++ l.extractLsb' 8 8 ∧ (h ++ l).extractLsb' 0 8 = l.extractLsb' 0 8 := by
  refine ⟨BitVec.extractLsb'_append_eq_of_le (by decide), BitVec.extractLsb'_append_eq_of_le (by decide), ?_, ?_⟩
  · rw [append_words_eq]
    exact messageOf_append ..
  · exact BitVec.extractLsb'_append_eq_of_add_le (by decide)

end FrameParts

/-- The status check's one-bit slice, as R82 writes it. -/
theorem extractLsb'_statusBit (f : Frame) : f.extractLsb' 31 1 = BitVec.ofBool (statusBit f) := by
  ext i hi
  simp [statusBit, show i = 0 by omega]

/-- R84 masks the status bit off. -/
theorem addressField_flip_statusBit (f : Frame) : addressField (f ^^^ 0x80000000#32) = addressField f := by
  have hmask : (0x80000000#32).extractLsb' 24 7 = 0#7 := by decide
  rw [addressField, BitVec.extractLsb'_xor, hmask, BitVec.xor_zero, addressField]

/-! ### The frame checks (R83 to R85) and the RSTAT that reports them -/

section Flags

variable (k : FrameChecks)

@[simp] theorem validFlag_rstatChecked : validFlag (rstatChecked k) = checksPass k := validFlag_packRstat ..

@[simp] theorem stsOkFlag_rstatChecked : stsOkFlag (rstatChecked k) = k.stsOk := stsOkFlag_packRstat ..

@[simp] theorem addrOkFlag_rstatChecked : addrOkFlag (rstatChecked k) = k.addrOk := addrOkFlag_packRstat ..

@[simp] theorem crcOkFlag_rstatChecked : crcOkFlag (rstatChecked k) = k.crcOk := crcOkFlag_packRstat ..

end Flags

/-- R77: the CRC check and the remainder of the whole frame say the same. -/
theorem crcOk_checkFrame_eq_rem32 (f : Frame) (ea : Address) : (checkFrame f ea).crcOk = (rem32 f == 0x00#8) := by
  obtain ⟨-, hiff⟩ := frameRemainderIsCrcXorCrcByte f
  rw [Bool.eq_iff_iff, beq_iff_eq]
  exact beq_iff_eq.trans hiff

/-- A frame with the right CRC, checked against its own address: its status bit alone is open. -/
theorem checkFrame_append_crc8 (b : BitVec 1) (a : Address) (d : Half) :
    checkFrame (b ++ a ++ d ++ crc8 (b ++ a ++ d)) a = { stsOk := b.getLsbD 0, addrOk := true, crcOk := true } := by
  rw [checkFrame, statusBit_append, addressField_append, crcField_append, messageOf_append, beq_self_eq_true,
    beq_self_eq_true]

/-! ### What the three commands write (R80, R82, R86) -/

/-- R80: BUILD writes the write message's CRC and well-formed frame. -/
theorem exec_build (a : Address) (d : Half) (s : State) :
    exec (.build a d) s = .next { s with
      rstat := 0x80#8
      rop := 0x2#4
      rcrc := crc8 (0#1 ++ a ++ d)
      rframe := 0#1 ++ a ++ d ++ crc8 (0#1 ++ a ++ d) } := by
  rw [← writeMessage_eq]
  rfl

theorem exec_validate (f : Frame) (ea : Address) (s : State) :
    exec (.validate f ea) s = .next (writeChecked 0x3#4 f ea s) := rfl

theorem exec_extract (h l : Half) (ea : Address) (s : State) :
    exec (.extract h l ea) s = .next (writeChecked 0x4#4 (h ++ l) ea s) := rfl

section Checked

variable (op : Opcode) (f : Frame) (ea : Address) (s : State)

@[simp] theorem writeChecked_rstat : (writeChecked op f ea s).rstat = rstatChecked (checkFrame f ea) := rfl

@[simp] theorem writeChecked_rop : (writeChecked op f ea s).rop = op := rfl

@[simp] theorem writeChecked_rcrc : (writeChecked op f ea s).rcrc = crc8 (messageOf f) := rfl

@[simp] theorem writeChecked_rframe : (writeChecked op f ea s).rframe = f := rfl

/-- The whole effect of a checking command, with RSTAT from the frame's slices. -/
theorem writeChecked_eq :
    writeChecked op f ea s = { s with
      rstat :=
        let sts := f.extractLsb' 31 1
        let adr := BitVec.ofBool (f.extractLsb' 24 7 == ea)
        let crc := BitVec.ofBool (f.extractLsb' 0 8 == crc8 (f.extractLsb' 8 24))
        0b10#2 ++ (sts &&& adr &&& crc) ++ sts ++ adr ++ crc ++ 0b00#2
      rop := op
      rcrc := crc8 (f.extractLsb' 8 24)
      rframe := f } := by
  rw [writeChecked, rstatChecked, checksPass, packRstat_checked, extractLsb'_statusBit]
  rfl

end Checked

/-- VALIDATE of a frame and EXTRACT of its two words do one thing, but for ROP (R87). -/
theorem exec_of_checking {i : Instr} {f : Frame} {ea : Address}
    (hi : i = .validate f ea ∨ i = .extract (f.extractLsb' 16 16) (f.extractLsb' 0 16) ea) (s : State) :
    ∃ op, exec i s = .next (writeChecked op f ea s) := by
  rcases hi with rfl | rfl
  · exact ⟨0x3#4, exec_validate f ea s⟩
  · refine ⟨0x4#4, (exec_extract ..).trans ?_⟩
    exact congrArg (fun g => Host.Outcome.next (writeChecked 0x4#4 g ea s)) (frameOfWords_slices f)

/-! ### The words of the checking commands, RSV included (30_encoding.md R60, R61, R63) -/

theorem decode_validate_word (r : BitVec 5) (ea : Address) (f : Frame) :
    decode (0x3#4 ++ r ++ ea ++ f) = .ok (.validate f ea) := by
  rw [append_ea_pl, decode_of_validate (opField_append ..), plField_append, eaField_append,
    BitVec.extractLsb'_append_eq_left, BitVec.extractLsb'_append_eq_right]

theorem decode_extract_word (r : BitVec 5) (ea : Address) (h l : Half) :
    decode (0x4#4 ++ r ++ ea ++ h ++ l) = .ok (.extract h l ea) := by
  have hword : (0x4#4 ++ r ++ ea ++ h ++ l : Command) = 0x4#4 ++ r ++ (ea ++ (h ++ l)) :=
    BitVec.append_assoc.trans (append_ea_pl ..)
  have hea : eaField (0x4#4 ++ r ++ ea ++ h ++ l) = ea := by
    rw [hword, eaField_append, BitVec.extractLsb'_append_eq_left]
  have hop : opField (0x4#4 ++ r ++ ea ++ h ++ l) = 0x4#4 := by rw [hword, opField_append]
  have hmsb : (0x4#4 ++ r ++ ea ++ h ++ l : Command).extractLsb' 16 16 = h := by
    rw [BitVec.extractLsb'_append_eq_of_le (by decide)]
    exact BitVec.extractLsb'_append_eq_right
  rw [decode_of_extract hop, hea, hmsb, BitVec.extractLsb'_append_eq_right]

/-- BUILD does not read PL[31] (R81). -/
theorem decode_flip_topBit_of_build {cmd : Command} (hop : opField cmd = 0x2#4) :
    decode (cmd ^^^ 0x000080000000#48) = decode cmd := by
  have hslice : ∀ start len, (0x000080000000#48).extractLsb' start len = 0#len →
      (cmd ^^^ 0x000080000000#48).extractLsb' start len = cmd.extractLsb' start len := by
    intro start len hmask
    rw [BitVec.extractLsb'_xor, hmask, BitVec.xor_zero]
  have hop' : opField (cmd ^^^ 0x000080000000#48) = 0x2#4 := (hslice 44 4 (by decide)).trans hop
  rw [decode_of_build hop', decode_of_build hop, hslice 24 7 (by decide), hslice 8 16 (by decide)]

/-! ### The statements -/

/-- Settles O19: the built frame is `0 ++ a ++ d` and its CRC, with `a` and `d` taken from bits other than PL[31]. -/
theorem builtFrameStatusBitIsZero : Obligations.BuiltFrameStatusBitIsZero := by
  intro cmd s t hop ht
  have hflip : performIssue (cmd ^^^ 0x000080000000#48) s = .next t :=
    (performIssue_congr (decode_flip_topBit_of_build hop) s).trans ht
  rw [performIssue_of_ok (decode_of_build hop), exec_build, Host.Outcome.next.injEq] at ht
  subst ht
  refine ⟨statusBit_append .., ?crc, hflip⟩
  case crc =>
    rw [extractLsb'_below_statusBit]
    exact congrArg crc8 (append_address_data ..)

/-- Settles O22: each flag is one field of `checkFrame`, and no check but the first looks at the status bit. -/
theorem frameChecksAreIndependentFlags : Obligations.FrameChecksAreIndependentFlags := by
  intro f ea i s hi
  obtain ⟨op, hexec⟩ := exec_of_checking hi s
  refine ⟨_, hexec, stsOkFlag_rstatChecked _, addrOkFlag_rstatChecked _, crcOkFlag_rstatChecked _, ?rem, rfl, _,
    exec_validate .., ?flip⟩
  case rem => rw [writeChecked_rstat, crcOkFlag_rstatChecked, crcOk_checkFrame_eq_rem32]
  case flip =>
    simp only [writeChecked_rstat, addrOkFlag_rstatChecked, checkFrame, addressField_flip_statusBit]

/-- Settles O24: both frames carry their CRC and the expected address; their status bits, 0 and 1, decide. -/
theorem writeFrameNeverValidatesResponseFrameAlwaysDoes :
    Obligations.WriteFrameNeverValidatesResponseFrameAlwaysDoes := by
  intro a d s
  refine ⟨⟨_, _, exec_build a d s, exec_validate .., ?write⟩,
    ⟨_, _, exec_crc8 _ s, rfl, exec_validate .., ?response⟩⟩
  case write =>
    simp only [writeChecked_rstat, checkFrame_append_crc8]
    decide
  case response =>
    simp only [writeChecked_rstat, checkFrame_append_crc8]
    decide

/-- Settles O25: the checks choose RSTAT alone; RFRAME is the frame, and the views are its fields. -/
theorem receivedFieldsAreKeptWhetherValidOrNot : Obligations.ReceivedFieldsAreKeptWhetherValidOrNot := by
  intro f ea i s hi
  obtain ⟨op, hexec⟩ := exec_of_checking hi s
  exact ⟨_, hexec, writeChecked_rframe op f ea s, rfl, rfl, rfl, rfl⟩

/-- Settles O18: BUILD's meaning on the operands its word decodes to; the frame is a message and that message's CRC. -/
theorem buildCommandResult : Obligations.BuildCommandResult := by
  refine ⟨exec_build, fun r ea b a d x s => ?word, fun a d s t ht => ?crc, fun s => ⟨?zero, ?ones, ?check⟩⟩
  case word => exact performIssue_of_ok (decode_build_word r ea b a d x) s
  case crc =>
    rw [exec_build, Host.Outcome.next.injEq] at ht
    subst ht
    have hcrc : crcField (0#1 ++ a ++ d ++ crc8 (0#1 ++ a ++ d)) =
        crc8 (messageOf (0#1 ++ a ++ d ++ crc8 (0#1 ++ a ++ d))) := by rw [crcField_append, messageOf_append]
    obtain ⟨-, hiff⟩ := frameRemainderIsCrcXorCrcByte (0#1 ++ a ++ d ++ crc8 (0#1 ++ a ++ d))
    exact ⟨hcrc, hiff.1 hcrc⟩
  case zero =>
    have hframe : 0#1 ++ 0x00#7 ++ 0x0000#16 ++ crc8 (0#1 ++ 0x00#7 ++ 0x0000#16) = 0x00000000#32 := by decide +kernel
    exact ⟨_, exec_build .., hframe⟩
  case ones =>
    have hframe : 0#1 ++ 0x7F#7 ++ 0xFFFF#16 ++ crc8 (0#1 ++ 0x7F#7 ++ 0xFFFF#16) = 0x7FFFFF04#32 := by decide +kernel
    exact ⟨_, exec_build .., hframe⟩
  case check =>
    have hdecode : decode 0x200041002E00#48 = .ok (.build 0x41#7 0x002E#16) :=
      decode_build_word 0#5 0#7 0#1 0x41#7 0x002E#16 0#8
    refine ⟨_, (performIssue_of_ok hdecode s).trans (exec_build ..), ?_⟩
    have hcrc : crc8 (0#1 ++ 0x41#7 ++ 0x002E#16) = 0x27#8 := crc8_example
    simp only [State.rmsbw, State.rlsbw, hcrc]
    decide

/-- Settles O20: the shared checking write on the operands its word decodes to; the spec's frames are evaluated. -/
theorem validateCommandResult : Obligations.ValidateCommandResult := by
  refine ⟨fun f ea s => ?effect, fun r ea f s => ?word, fun s => ⟨?zero, ?status, ?check⟩⟩
  case effect => rw [exec_validate, writeChecked_eq]
  case word => exact performIssue_of_ok (decode_validate_word r ea f) s
  case zero =>
    refine ⟨_, exec_validate .., ?_⟩
    rw [writeChecked_rstat]
    decide +kernel
  case status =>
    refine ⟨_, exec_validate .., ?_⟩
    rw [writeChecked_rstat]
    decide +kernel
  case check =>
    have hdecode : decode 0x302EAEA0209C#48 = .ok (.validate 0xAEA0209C#32 0x2E#7) :=
      decode_validate_word 0#5 0x2E#7 0xAEA0209C#32
    refine ⟨_, (performIssue_of_ok hdecode s).trans (exec_validate ..), ?_⟩
    simp only [State.raddr, State.rdata, writeChecked_rstat, writeChecked_rcrc, writeChecked_rframe]
    decide +kernel

/-- Settles O21: the shared checking write, its slices taken from the two words; swapped, the status bit reads 0. -/
theorem extractCommandResult : Obligations.ExtractCommandResult := by
  refine ⟨fun h l ea s => ?effect, fun r ea h l s => ?word, fun s => ⟨?check, ?swapped⟩⟩
  case effect =>
    obtain ⟨hsts, haddr, hmsg, hcrc⟩ := slices_append_words h l
    rw [exec_extract, writeChecked_eq, hsts, haddr, hmsg, hcrc]
  case word => exact performIssue_of_ok (decode_extract_word r ea h l) s
  case check =>
    have hdecode : decode 0x402EAEA0209C#48 = .ok (.extract 0xAEA0#16 0x209C#16 0x2E#7) :=
      decode_extract_word 0#5 0x2E#7 0xAEA0#16 0x209C#16
    refine ⟨_, (performIssue_of_ok hdecode s).trans (exec_extract ..), ?_⟩
    simp only [State.rdata, writeChecked_rstat, writeChecked_rframe]
    decide +kernel
  case swapped =>
    have hdecode : decode 0x402E209CAEA0#48 = .ok (.extract 0x209C#16 0xAEA0#16 0x2E#7) :=
      decode_extract_word 0#5 0x2E#7 0x209C#16 0xAEA0#16
    refine ⟨_, (performIssue_of_ok hdecode s).trans (exec_extract ..), ?_⟩
    have hsts : statusBit (0x209C#16 ++ 0xAEA0#16) = false := by decide
    simp only [writeChecked_rstat, validFlag_rstatChecked, checksPass, checkFrame, hsts, Bool.false_and]

/-- Settles O23: both write the checks of one frame, each under its own opcode. -/
theorem extractMatchesValidateOnTheSameFrame : Obligations.ExtractMatchesValidateOnTheSameFrame := by
  intro h l ea s
  refine ⟨_, _, exec_extract h l ea s, exec_validate (h ++ l) ea s, ?_⟩
  simp only [writeChecked_rstat, writeChecked_rcrc, writeChecked_rframe, writeChecked_rop, and_self]

end Sys2Proof.Proofs

/-! SUPPORT and the statements of 60_exceptions.md. A word is its opcode and 44 other bits; a reserved opcode decides the
ISSUE before any of those is looked at. A READ answers or faults by its number and HAS alone: `performRead_eq_fault_iff`
is the counterpart of `performRead_eq_next_iff`, and `readAllowed_eq_false_iff` says when the contract is broken. -/

namespace Sys2Proof.Proofs

open Sys2Proof Sys2Proof.Machine Sys2Proof.Spec

/-! ### The illegal command (60_exceptions.md R101) -/

/-- The opcode of a word cut after its opcode: no bit of RSV, EA or PL is in it (30_encoding.md R56). -/
theorem opField_append_rest (op : Opcode) (rest : BitVec 44) : opField (op ++ rest) = op :=
  BitVec.extractLsb'_append_eq_left

theorem performIssue_of_reserved {op : Opcode} (hop : op = 0x0#4 ∨ 5 ≤ op.toNat) (rest : BitVec 44) (s : State) :
    performIssue (op ++ rest) s = .next (takeIllegal op s) := by
  have hlegal : opcodeLegal (opField (op ++ rest)) = false := by
    rw [opField_append_rest, opcodeLegal_eq_false_iff]
    exact hop
  have hdecode := decode_of_reserved hlegal
  rw [opField_append_rest] at hdecode
  exact performIssue_of_illegal hdecode s

@[simp] theorem illFlag_rstatResult : illFlag rstatResult = false := illFlag_packRstat ..

@[simp] theorem illFlag_rstatChecked (k : FrameChecks) : illFlag (rstatChecked k) = false := illFlag_packRstat ..

/-- A legal command writes an RSTAT that holds HAS alone, or the checks of a frame (10_state.md R38). -/
theorem exec_rstat_cases {i : Instr} {s t : State} (h : exec i s = .next t) :
    t.rstat = rstatResult ∨ ∃ k, t.rstat = rstatChecked k := by
  cases i with
  | crc8 m =>
    obtain rfl := Host.Outcome.next.inj ((exec_crc8 m s).symm.trans h)
    exact .inl rfl
  | build a d =>
    obtain rfl := Host.Outcome.next.inj ((exec_build a d s).symm.trans h)
    exact .inl rfl
  | validate f ea =>
    obtain rfl := Host.Outcome.next.inj ((exec_validate f ea s).symm.trans h)
    exact .inr ⟨_, writeChecked_rstat ..⟩
  | extract msbw lsbw ea =>
    obtain rfl := Host.Outcome.next.inj ((exec_extract msbw lsbw ea s).symm.trans h)
    exact .inr ⟨_, writeChecked_rstat ..⟩

/-! ### The contract of a READ (60_exceptions.md R110, R111) -/

theorem readAllowed_eq_false_iff {r : ResultRegister} {s : State} :
    readAllowed r s = false ↔ r ≠ .rstat ∧ hasFlag s.rstat = false := by
  rw [readAllowed, Bool.or_eq_false_iff, beq_eq_false_iff_ne]

/-- A READ that faults names no register, or one that may not be read yet. -/
theorem performRead_eq_fault_iff {n : Nat} {s : State} {e : Fault} :
    performRead n s = .fault e ↔
      (4 ≤ n ∧ e = .badRegister n) ∨
      ∃ r, registerOfNumber n = some r ∧ readAllowed r s = false ∧ e = .readBeforeResult r := by
  constructor
  · intro h
    rcases performRead_cases n s with ⟨hn, hr⟩ | ⟨r, -, -, hr⟩ | ⟨r, hn, ha, hr⟩
    · rw [hr, Host.Outcome.fault.injEq] at h
      exact .inl ⟨hn, h.symm⟩
    · rw [hr] at h
      cases h
    · rw [hr, Host.Outcome.fault.injEq] at h
      exact .inr ⟨r, hn, ha, h.symm⟩
  · rintro (⟨hn, rfl⟩ | ⟨r, hn, ha, rfl⟩)
    · rw [performRead, (registerOfNumber_none_iff n).2 hn]
    · simp [performRead, hn, ha]

/-- The registers a READ can ask for too early, by their numbers (10_state.md R23). -/
theorem registerOfNumber_result_cases {n : Nat} {r : ResultRegister} (hn : registerOfNumber n = some r)
    (hr : r ≠ .rstat) : (n = 1 ∧ r = .rop) ∨ (n = 2 ∧ r = .rcrc) ∨ (n = 3 ∧ r = .rframe) := by
  match n with
  | 0 => exact absurd (Option.some.inj hn).symm hr
  | 1 => exact .inl ⟨rfl, (Option.some.inj hn).symm⟩
  | 2 => exact .inr (.inl ⟨rfl, (Option.some.inj hn).symm⟩)
  | 3 => exact .inr (.inr ⟨rfl, (Option.some.inj hn).symm⟩)
  | n + 4 => cases hn

/-- Once a command has completed, every register may be read. -/
theorem performRead_of_has_set {n : Nat} {r : ResultRegister} {s : State} (hn : registerOfNumber n = some r)
    (h : hasFlag s.rstat = true) : performRead n s = .next (giveReply (readRegister r s) s) := by
  refine performRead_eq_next_iff.2 ⟨r, hn, ?_, rfl⟩
  rw [readAllowed, h, Bool.or_true]

/-! ### The statements -/

/-- Settles O26: the decoder rejects the word by its opcode alone, and no legal command's RSTAT has ILL. -/
theorem illegalCommandResult : Obligations.IllegalCommandResult := by
  refine ⟨?reserved, ?legal, ?worked⟩
  case reserved =>
    intro op rest s hop
    exact performIssue_of_reserved hop rest s
  case legal =>
    intro i s t h
    rcases exec_rstat_cases h with hr | ⟨k, hr⟩
    · rw [hr, illFlag_rstatResult]
    · rw [hr, illFlag_rstatChecked]
  case worked =>
    intro s
    have hword : 0x5012DEADBEEF#48 = 0x5#4 ++ 0x012DEADBEEF#44 := by decide
    rw [hword]
    exact performIssue_of_reserved (.inr (by decide)) _ s

/-- Settles O34: a READ that faults has a number without a register, or asks for a result register while HAS = 0. -/
theorem readFaultsExactlyOnContractViolations : Obligations.ReadFaultsExactlyOnContractViolations := by
  intro n s e
  rw [performRead_eq_fault_iff]
  refine or_congr_right ⟨?early, ?faults⟩
  case early =>
    rintro ⟨r, hn, ha, rfl⟩
    obtain ⟨hr, hhas⟩ := readAllowed_eq_false_iff.1 ha
    refine ⟨hhas, ?_⟩
    rcases registerOfNumber_result_cases hn hr with ⟨rfl, rfl⟩ | ⟨rfl, rfl⟩ | ⟨rfl, rfl⟩
    · exact .inl ⟨rfl, rfl⟩
    · exact .inr (.inl ⟨rfl, rfl⟩)
    · exact .inr (.inr ⟨rfl, rfl⟩)
  case faults =>
    rintro ⟨hhas, ⟨rfl, rfl⟩ | ⟨rfl, rfl⟩ | ⟨rfl, rfl⟩⟩ <;>
      exact ⟨_, rfl, readAllowed_eq_false_iff.2 ⟨by decide, hhas⟩, rfl⟩

/-- Settles O33: RSTAT may be read at any time, the others with HAS = 1; the reply is the register's value. -/
theorem readReturnsTheWholeRegister : Obligations.ReadReturnsTheWholeRegister := by
  intro s
  refine ⟨performRead_zero s, fun h => ⟨?rop, ?rcrc, ?rframe⟩⟩
  case rop => exact performRead_of_has_set (n := 1) (r := .rop) rfl h
  case rcrc => exact performRead_of_has_set (n := 2) (r := .rcrc) rfl h
  case rframe => exact performRead_of_has_set (n := 3) (r := .rframe) rfl h

end Sys2Proof.Proofs

/-! SUPPORT and the statements of 70_reset_and_hazards.md. After an ISSUE every register may be read, and its value is the
command's row of R38 (`readRegister_withRow_latchRow`). For R116 two states are compared by what a host can tell of them
(`SameToHost`): equal RSTAT, replies and transactions to come, and equal result registers once HAS = 1. Every transaction
keeps that relation or stops both runs with one fault, so no run tells such states apart. -/

namespace Sys2Proof.Proofs

open Sys2Proof Sys2Proof.Machine Sys2Proof.Spec

/-! ### The registers after an ISSUE (10_state.md R38, 70_reset_and_hazards.md R124) -/

section AfterIssue

variable {cmd : Command} {s : State} {ts : List Transaction}

@[simp] theorem withRow_pending (r : LatchRow) (s : State) : (withRow r s).pending = s.pending := rfl

@[simp] theorem withRow_replies (r : LatchRow) (s : State) : (withRow r s).replies = s.replies := rfl

@[simp] theorem advance_withRow (r : LatchRow) (s : State) : advance (withRow r s) = withRow r (advance s) := rfl

/-- A command writes the reserved bits of RSTAT as 0, so the mask of a READ leaves its RSTAT as it is (R31). -/
theorem packRstat_and_mask (ill valid sts addr crc : Bool) :
    packRstat ill valid sts addr crc &&& 0xFC#8 = packRstat ill valid sts addr crc := by
  revert ill valid sts addr crc; decide

theorem rstatValue_withRow_latchRow (cmd : Command) (s : State) :
    rstatValue (withRow (latchRow cmd) s) = (latchRow cmd).rstat := by
  rw [rstatValue, withRow_rstat]
  rcases latchRow_rstat_cases cmd with ⟨-, h⟩ | ⟨-, h⟩ | ⟨-, h⟩ <;> rw [h] <;> exact packRstat_and_mask ..

/-- A register read after a command holds its entry in that command's row. -/
theorem readRegister_withRow_latchRow {n : Nat} {r : ResultRegister} (hn : registerOfNumber n = some r) :
    readRegister r (withRow (latchRow cmd) s) = replyAfter (some cmd) n := by
  match n with
  | 0 =>
    obtain rfl := Option.some.inj hn
    exact congrArg Reply.rstat (rstatValue_withRow_latchRow cmd s)
  | 1 | 2 | 3 =>
    obtain rfl := Option.some.inj hn
    rfl
  | n + 4 => cases hn

theorem exists_registerOfNumber {n : Nat} (hn : n < 4) : ∃ r, registerOfNumber n = some r := by
  refine Option.ne_none_iff_exists'.1 fun hnone => ?_
  exact absurd ((registerOfNumber_none_iff n).1 hnone) (by omega)

/-- A READ of a register there is, in a state that holds a command's row, returns the row's entry. -/
theorem performRead_withRow_latchRow {n : Nat} (hn : n < 4) :
    performRead n (withRow (latchRow cmd) s) =
      .next (giveReply (replyAfter (some cmd) n) (withRow (latchRow cmd) s)) := by
  obtain ⟨r, hr⟩ := exists_registerOfNumber hn
  have hhas : hasFlag (withRow (latchRow cmd) s).rstat = true := hasFlag_latchRow cmd
  rw [performRead_of_has_set hr hhas, readRegister_withRow_latchRow hr]

theorem step_of_issue (h : s.pending = .issue cmd :: ts) :
    step s = .next (withRow (latchRow cmd) (advance s)) := by
  rw [step_of_cons s _ ts h, perform, performIssue_eq_withRow]

theorem step_of_read {n : Nat} (h : s.pending = .read n :: ts) : step s = performRead n (advance s) := by
  rw [step_of_cons s _ ts h, perform]

end AfterIssue

/-! ### States that a host cannot tell apart (70_reset_and_hazards.md R116, 93_implementation_defined.md U3) -/

/-- What a host can learn of two states is the same: the result registers count only while a READ of them is allowed. The
position and the number of RESETs are left free. -/
structure SameToHost (s s' : State) : Prop where
  rstat_eq : s.rstat = s'.rstat
  pending_eq : s.pending = s'.pending
  replies_eq : s.replies = s'.replies
  results_eq : hasFlag s.rstat = true → s.rop = s'.rop ∧ s.rcrc = s'.rcrc ∧ s.rframe = s'.rframe

/-- Two outcomes that a host cannot tell apart: next states that it cannot, or one fault. -/
def SameOutcome (o o' : Host.Outcome State Fault Refusal) : Prop :=
  (∃ t t', o = .next t ∧ o' = .next t' ∧ SameToHost t t') ∨ ∃ e, o = .fault e ∧ o' = .fault e

namespace SameToHost

variable {s s' : State}

theorem advance (h : SameToHost s s') : SameToHost (advance s) (advance s') where
  rstat_eq := h.rstat_eq
  pending_eq := congrArg List.tail h.pending_eq
  replies_eq := h.replies_eq
  results_eq := h.results_eq

/-- A row written over both latches leaves no difference, whatever they held. -/
theorem withRow (h : SameToHost s s') (r : LatchRow) : SameToHost (withRow r s) (withRow r s') where
  rstat_eq := rfl
  pending_eq := h.pending_eq
  replies_eq := h.replies_eq
  results_eq := fun _ => ⟨rfl, rfl, rfl⟩

theorem giveReply (h : SameToHost s s') (v : Reply) : SameToHost (giveReply v s) (giveReply v s') where
  rstat_eq := h.rstat_eq
  pending_eq := h.pending_eq
  replies_eq := congrArg (· ++ [v]) h.replies_eq
  results_eq := h.results_eq

/-- The free contents that two RESETs leave may differ, but HAS = 0 hides them. -/
theorem resetLatch (h : SameToHost s s') : SameToHost (resetLatch s) (resetLatch s') where
  rstat_eq := rfl
  pending_eq := h.pending_eq
  replies_eq := h.replies_eq
  results_eq := fun hhas => by simp at hhas

theorem readAllowed_eq (h : SameToHost s s') (r : ResultRegister) : readAllowed r s = readAllowed r s' := by
  rw [readAllowed, readAllowed, h.rstat_eq]

/-- A register that may be read has the same value in both states. -/
theorem readRegister_eq (h : SameToHost s s') {r : ResultRegister} (ha : readAllowed r s = true) :
    readRegister r s = readRegister r s' := by
  by_cases hr : r = .rstat
  · subst hr
    rw [readRegister, readRegister, rstatValue, rstatValue, h.rstat_eq]
  · have hhas : hasFlag s.rstat = true := by simpa [readAllowed, hr] using ha
    obtain ⟨hrop, hrcrc, hrframe⟩ := h.results_eq hhas
    cases r with
    | rstat => exact absurd rfl hr
    | rop => exact congrArg Reply.rop hrop
    | rcrc => exact congrArg Reply.rcrc hrcrc
    | rframe => exact congrArg Reply.rframe hrframe

/-- A READ answers both states with one value, or stops both with one fault. -/
theorem performRead (h : SameToHost s s') (n : Nat) : SameOutcome (performRead n s) (performRead n s') := by
  rcases performRead_cases n s with ⟨hn, hs⟩ | ⟨r, hn, ha, hs⟩ | ⟨r, hn, ha, hs⟩
  · exact .inr ⟨_, hs, performRead_eq_fault_iff.2 (.inl ⟨hn, rfl⟩)⟩
  · refine .inl ⟨_, _, hs, performRead_eq_next_iff.2 ⟨r, hn, h.readAllowed_eq r ▸ ha, rfl⟩, ?_⟩
    rw [← h.readRegister_eq ha]
    exact h.giveReply _
  · exact .inr ⟨_, hs, performRead_eq_fault_iff.2 (.inr ⟨r, hn, h.readAllowed_eq r ▸ ha, rfl⟩)⟩

theorem perform (h : SameToHost s s') (t : Transaction) : SameOutcome (perform t s) (perform t s') := by
  cases t with
  | issue cmd => exact .inl ⟨_, _, performIssue_eq_withRow cmd s, performIssue_eq_withRow cmd s', h.withRow _⟩
  | read n => exact h.performRead n
  | reset => exact .inl ⟨_, _, performReset_eq s, performReset_eq s', h.resetLatch⟩

theorem step (h : SameToHost s s') : SameOutcome (step s) (step s') := by
  cases hp : s.pending with
  | nil => exact .inl ⟨s, s', step_of_nil s hp, step_of_nil s' (h.pending_eq ▸ hp), h⟩
  | cons t ts =>
    rw [step_of_cons s t ts hp, step_of_cons s' t ts (h.pending_eq ▸ hp)]
    exact h.advance.perform t

end SameToHost

/-! ### Runs -/

theorem run_succ_of_next {s t : State} (k : Nat) (h : step s = .next t) :
    Host.Core.run core (k + 1) s = Host.Core.run core k t := by
  have hcore : core.step s = .next t := h
  simp only [Host.Core.run, hcore]

theorem run_succ_of_fault {s : State} {e : Fault} (k : Nat) (h : step s = .fault e) :
    Host.Core.run core (k + 1) s = .fault e := by
  have hcore : core.step s = .fault e := h
  simp only [Host.Core.run, hcore]

/-- No run shows a difference between two states that the host cannot tell apart. -/
theorem SameToHost.visible_run {s s' : State} (h : SameToHost s s') (k : Nat) :
    visible (Host.Core.run core k s) = visible (Host.Core.run core k s') := by
  induction k generalizing s s' with
  | zero =>
    change Except.ok (s.rstat, s.replies, s.pending) = Except.ok (s'.rstat, s'.replies, s'.pending)
    rw [h.rstat_eq, h.replies_eq, h.pending_eq]
  | succ k ih =>
    rcases h.step with ⟨t, t', hs, hs', ht⟩ | ⟨e, hs, hs'⟩
    · rw [run_succ_of_next k hs, run_succ_of_next k hs']
      exact ih ht
    · rw [run_succ_of_fault k hs, run_succ_of_fault k hs']

/-- A RESET, from whatever state, and power-on, with the same transactions placed after them and no reply yet. -/
theorem sameToHost_resetLatch_powerOn (s : State) (ts : List Transaction) :
    SameToHost { resetLatch s with pending := ts, replies := [] } { State.reset with pending := ts } where
  rstat_eq := rfl
  pending_eq := rfl
  replies_eq := rfl
  results_eq := fun hhas => by simp at hhas

/-! ### The statements -/

/-- Settles O38: a RESET clears HAS, and the row that the next ISSUE writes sets it. -/
theorem resetEmptiesTheLatch : Obligations.ResetEmptiesTheLatch := by
  intro s
  obtain ⟨hrop, hrcrc, hrframe⟩ := reads_fault_of_has_clear (s := resetLatch s) hasFlag_zero
  refine ⟨resetLatch s, performReset_eq s, resetLatch_rstat s, resetLatch_pending s, resetLatch_position s,
    resetLatch_replies s, hrop, hrcrc, hrframe, fun cmd => ?_⟩
  exact ⟨_, performIssue_eq_withRow cmd _, fun n hn => ⟨_, performRead_withRow_latchRow hn⟩⟩

/-- Settles O42: the ISSUE writes its row, which the READ in the next step finds. -/
theorem readRightAfterIssueReturnsItsResult : Obligations.ReadRightAfterIssueReturnsItsResult := by
  intro s cmd n ts hn hp
  have hnext : (withRow (latchRow cmd) (advance s)).pending = .read n :: ts := by simp [hp]
  have hread := step_of_read hnext
  rw [advance_withRow, performRead_withRow_latchRow hn] at hread
  exact ⟨_, _, step_of_issue hp, hread, by simp, by simp [hp]⟩

/-- Settles O45: a RESET leaves a state that the host cannot tell from power-on. -/
theorem powerOnAndResetAreTheSame : Obligations.PowerOnAndResetAreTheSame := by
  intro s
  refine ⟨resetLatch s, performReset_eq s, rfl, rfl, fun k ts => ?_⟩
  exact (sameToHost_resetLatch_powerOn s ts).visible_run k

end Sys2Proof.Proofs

/-! SUPPORT and the statements about runs. A host that knows the flag table alone predicts the replies one transaction at a
time (`repliesOf_cons`), and one step meets that prediction and keeps the relation between the latch and the latest ISSUE
(`step_keeps_latchHolds`). Each of the three kinds of command leaves a latch with the invariant, and so does a RESET. -/

namespace Sys2Proof.Proofs

open Sys2Proof Sys2Proof.Machine Sys2Proof.Spec

/-! ### One step (60_exceptions.md R107) -/

theorem advance_of_pending_cons {s : State} {t : Transaction} {ts : List Transaction} (h : s.pending = t :: ts) :
    advance s = { s with pending := ts, position := s.position + 1 } := by
  rw [advance, h, List.tail_cons]

/-- Only a READ can stop a step, and it stops it as it faults by itself. -/
theorem step_eq_fault_iff {s : State} {e : Fault} :
    step s = .fault e ↔ ∃ n, s.pending.head? = some (.read n) ∧ performRead n s = .fault e := by
  cases hp : s.pending with
  | nil => simp [step_of_nil s hp]
  | cons t ts =>
    rw [step_of_cons s t ts hp]
    cases t with
    | issue cmd => simp [perform, performIssue_eq_withRow]
    | reset => simp [perform, performReset_eq]
    | read n =>
      have hadvance : performRead n (advance s) = .fault e ↔ performRead n s = .fault e := by
        rw [performRead_eq_fault_iff, performRead_eq_fault_iff]
        rfl
      simp [perform, hadvance]

theorem step_ne_refused (s : State) (r : Refusal) : step s ≠ .refused r := by
  cases hp : s.pending with
  | nil => simp [step_of_nil s hp]
  | cons t ts =>
    rw [step_of_cons s t ts hp]
    cases t with
    | issue cmd => simp [perform, performIssue_eq_withRow]
    | reset => simp [perform, performReset_eq]
    | read n =>
      rcases performRead_cases n (advance s) with ⟨-, h⟩ | ⟨_, -, -, h⟩ | ⟨_, -, -, h⟩ <;> simp [perform, h]

/-! ### The host's prediction, one transaction at a time (20_memory.md R53) -/

/-- The latest ISSUE since the last RESET, after one more transaction. -/
def latestIssue (last : Option (BitVec 48)) : Transaction → Option (BitVec 48)
  | .issue cmd => some cmd
  | .read _ => last
  | .reset => none

theorem repliesOf_cons (last : Option (BitVec 48)) (t : Transaction) (ts : List Transaction) :
    repliesOf last (t :: ts) = repliesOf last [t] ++ repliesOf (latestIssue last t) ts := by
  cases t <;> rfl

theorem contractHolds_cons (last : Option (BitVec 48)) (t : Transaction) (ts : List Transaction) :
    contractHolds last.isSome (t :: ts) =
      (contractHolds last.isSome [t] && contractHolds (latestIssue last t).isSome ts) := by
  cases t with
  | issue cmd => rfl
  | read n => simp [contractHolds, latestIssue]
  | reset => rfl

/-- A READ within the contract answers what the host predicts from the latest ISSUE. -/
theorem performRead_of_latchHolds {last : Option (BitVec 48)} {s : State} {n : Nat} (hlatch : LatchHolds last s)
    (hcontract : contractHolds last.isSome [.read n] = true) :
    performRead n s = .next (giveReply (replyAfter last n) s) := by
  cases last with
  | none =>
    have hn : n = 0 := by simpa [contractHolds] using hcontract
    have hrstat : s.rstat = 0x00#8 := hlatch
    have hvalue : rstatValue s = 0x00#8 := by rw [rstatValue, hrstat, BitVec.zero_and]
    rw [hn, performRead_zero, hvalue]
    rfl
  | some cmd =>
    have hn : n < 4 := by
      have hcases : n = 0 ∨ n < 4 := by simpa [contractHolds] using hcontract
      omega
    have hrow : s = withRow (latchRow cmd) s := hlatch
    rw [hrow]
    exact performRead_withRow_latchRow hn

theorem latchHolds_advance {last : Option (BitVec 48)} {s : State} (h : LatchHolds last s) :
    LatchHolds last (advance s) := by
  cases last with
  | none => exact h
  | some cmd => exact congrArg advance h

theorem latchHolds_giveReply {last : Option (BitVec 48)} {s : State} (v : Reply) (h : LatchHolds last s) :
    LatchHolds last (giveReply v s) := by
  cases last with
  | none => exact h
  | some cmd => exact congrArg (giveReply v) h

/-- One step of a sequence that keeps the contract: it completes, gives the reply that the host predicts, and leaves the
latch of the latest ISSUE. -/
theorem step_keeps_latchHolds {last : Option (BitVec 48)} {s : State} {t : Transaction} {ts : List Transaction}
    (hp : s.pending = t :: ts) (hlatch : LatchHolds last s) (hcontract : contractHolds last.isSome [t] = true) :
    ∃ u, step s = .next u ∧ u.pending = ts ∧ u.position = s.position + 1 ∧
      u.replies = s.replies ++ repliesOf last [t] ∧ LatchHolds (latestIssue last t) u := by
  have htail : (advance s).pending = ts := by simp [hp]
  cases t with
  | issue cmd => exact ⟨_, step_of_issue hp, htail, rfl, (List.append_nil _).symm, rfl⟩
  | read n =>
    have hread := performRead_of_latchHolds (latchHolds_advance hlatch) hcontract
    exact ⟨_, (step_of_read hp).trans hread, htail, rfl, rfl, latchHolds_giveReply _ (latchHolds_advance hlatch)⟩
  | reset => exact ⟨_, step_of_cons s _ ts hp, htail, rfl, (List.append_nil _).symm, rfl⟩

/-! ### The latch invariant (10_state.md R38) -/

section Invariant

variable {s : State} {op : Opcode}

/-- With RSTAT clear the invariant says nothing of the other registers. -/
theorem latchInv_of_rstat_zero (h : s.rstat = 0x00#8) : LatchInv s where
  reserved_zero := by rw [h]; rfl
  empty_clear := fun _ => h
  illegal_latch := fun hhas => by simp [h] at hhas
  legal_crc := fun hhas => by simp [h] at hhas
  made_frame := fun hhas => by simp [h] at hhas
  built_status_clear := fun hhas => by simp [h] at hhas
  checked_frame := fun hhas => by simp [h] at hhas

/-- A READ touches nothing that the invariant speaks of. -/
theorem latchInv_giveReply_advance (h : LatchInv s) (v : Reply) : LatchInv (giveReply v (advance s)) :=
  ⟨h.reserved_zero, h.empty_clear, h.illegal_latch, h.legal_crc, h.made_frame, h.built_status_clear, h.checked_frame⟩

theorem packRstat_reserved_bits (ill valid sts addr crc : Bool) :
    (packRstat ill valid sts addr crc).extractLsb' 0 2 = 0#2 := by
  revert ill valid sts addr crc; decide

theorem opcodeLegal_of_makes (h : op = 0x1#4 ∨ op = 0x2#4) : opcodeLegal op = true := by
  rcases h with rfl | rfl <;> rfl

theorem opcodeLegal_of_checks (h : op = 0x3#4 ∨ op = 0x4#4) : opcodeLegal op = true := by
  rcases h with rfl | rfl <;> rfl

theorem not_makes_of_checks (h : op = 0x3#4 ∨ op = 0x4#4) : ¬(op = 0x1#4 ∨ op = 0x2#4) := by
  rcases h with rfl | rfl <;> decide

/-- CRC8 and BUILD leave a message with its CRC. -/
theorem latchInv_made {m : Message} (hop : op = 0x1#4 ∨ op = 0x2#4)
    (hbuilt : op = 0x2#4 → statusBit (m ++ crc8 m) = false) :
    LatchInv (writeLatch rstatResult op (crc8 m) (frameOfMessage m (crc8 m)) s) where
  reserved_zero := packRstat_reserved_bits ..
  empty_clear := fun hhas => by simp [rstatResult] at hhas
  illegal_latch := fun _ hill => by simp at hill
  legal_crc := fun _ _ => ⟨opcodeLegal_of_makes hop, congrArg crc8 (messageOf_append m _).symm⟩
  made_frame := fun _ _ => ⟨rfl, crcField_append ..⟩
  built_status_clear := fun _ => hbuilt
  checked_frame := fun _ hchecks => absurd hop (not_makes_of_checks hchecks)

/-- VALIDATE and EXTRACT leave the frame they checked, with its checks in the flags. -/
theorem latchInv_writeChecked (hop : op = 0x3#4 ∨ op = 0x4#4) (f : Frame) (ea : Address) :
    LatchInv (writeChecked op f ea s) where
  reserved_zero := packRstat_reserved_bits ..
  empty_clear := fun hhas => by simp [rstatChecked] at hhas
  illegal_latch := fun _ hill => by simp at hill
  legal_crc := fun _ _ => ⟨opcodeLegal_of_checks hop, rfl⟩
  made_frame := fun _ hmakes => absurd hmakes (not_makes_of_checks hop)
  built_status_clear := fun _ hbuild => absurd (.inr hbuild) (not_makes_of_checks hop)
  checked_frame := fun _ _ => by simp [checkFrame, checksPass]

/-- The illegal command leaves the latch of R101. -/
theorem latchInv_takeIllegal (hop : opcodeLegal op = false) : LatchInv (takeIllegal op s) where
  reserved_zero := packRstat_reserved_bits ..
  empty_clear := fun hhas => by simp [takeIllegal, rstatIllegal] at hhas
  illegal_latch := fun _ _ => ⟨rfl, hop, rfl, rfl⟩
  legal_crc := fun _ hill => by simp [takeIllegal, rstatIllegal] at hill
  made_frame := fun _ hmakes => absurd (hop.symm.trans (opcodeLegal_of_makes hmakes)) Bool.false_ne_true
  built_status_clear := fun _ hbuild =>
    absurd (hop.symm.trans (opcodeLegal_of_makes (.inr hbuild))) Bool.false_ne_true
  checked_frame := fun _ hchecks => absurd (hop.symm.trans (opcodeLegal_of_checks hchecks)) Bool.false_ne_true

/-- Every command leaves a latch with the invariant, whatever the latch held. -/
theorem latchInv_withRow_latchRow (cmd : Command) (s : State) : LatchInv (withRow (latchRow cmd) s) := by
  rcases opcode_cases (opField cmd) with (hop | hop) | hop | hop
  · rw [latchRow_of_crc8 hop]
    exact latchInv_made (op := 0x1#4) (.inl rfl) fun hbuild => absurd hbuild (by decide)
  · rw [latchRow_of_build hop]
    refine latchInv_made (.inr rfl) fun _ => ?_
    rw [writeMessage_eq]
    exact statusBit_append ..
  · rw [latchRow_of_checked hop, checkedRow_eq]
    exact latchInv_writeChecked hop ..
  · rw [latchRow_of_reserved hop]
    exact latchInv_takeIllegal hop

end Invariant

/-! ### The statements -/

/-- Settles O43, by induction over the sequence: each step gives its part of the prediction and keeps the latch relation. -/
theorem contractKeepingSequenceCompletesWithThePredictedReplies :
    Obligations.ContractKeepingSequenceCompletesWithThePredictedReplies := by
  intro ts
  induction ts with
  | nil =>
    intro last s hp _ _
    exact ⟨s, rfl, hp, rfl, (List.append_nil _).symm⟩
  | cons t ts ih =>
    intro last s hp hlatch hcontract
    rw [contractHolds_cons, Bool.and_eq_true] at hcontract
    obtain ⟨hfirst, hrest⟩ := hcontract
    obtain ⟨u, hstep, hpending, hposition, hreplies, hkept⟩ := step_keeps_latchHolds hp hlatch hfirst
    obtain ⟨v, hrun, hdone, hend, hall⟩ := ih _ u hpending hkept hrest
    refine ⟨v, (run_succ_of_next ts.length hstep).trans hrun, hdone, ?position, ?replies⟩
    case position => rw [hend, hposition, List.length_cons, Nat.add_assoc, Nat.add_comm 1]
    case replies => rw [hall, hreplies, repliesOf_cons last t ts, List.append_assoc]

/-- Settles O44: the hypotheses are `SameToHost`, which no run tells apart. -/
theorem unspecifiedContentsAreNeverObserved : Obligations.UnspecifiedContentsAreNeverObserved := by
  intro k s s' hrstat hpending hreplies hresults
  have hsame : SameToHost s s' := ⟨hrstat, hpending, hreplies, hresults⟩
  exact hsame.visible_run k

/-- Settles O47: a step leaves the latch, writes a command's row, or clears RSTAT. -/
theorem stepKeepsTheLatchInvariant : Obligations.StepKeepsTheLatchInvariant := by
  intro s t hs hstep
  rcases step_next_cases hstep with ⟨-, rfl⟩ | ⟨cmd, -, rfl⟩ | ⟨n, r, -, -, -, rfl⟩ | ⟨-, rfl⟩
  · exact hs
  · exact latchInv_withRow_latchRow cmd _
  · exact latchInv_giveReply_advance hs _
  · exact latchInv_of_rstat_zero (resetLatch_rstat _)

/-- Settles O41: a step faults where its READ does, and `performRead` faults on the violations of R111. -/
theorem stepStopsOnlyOnAContractViolation : Obligations.StepStopsOnlyOnAContractViolation := by
  intro s
  refine ⟨step_ne_refused s, fun e => step_eq_fault_iff.trans (exists_congr fun n => and_congr_right fun _ => ?_)⟩
  exact readFaultsExactlyOnContractViolations n s e

/-- Settles O51: VALID excludes the latches of no result, of an illegal command and of a made frame; in the one left the
checks that VALID conjoins are RFRAME's. -/
theorem validFlagVouchesForTheFrame : Obligations.ValidFlagVouchesForTheFrame := by
  intro s hinv hvalid
  have hrstat : ∀ v : BitVec 8, validFlag v = false → s.rstat ≠ v := by
    rintro v hv rfl
    rw [hv] at hvalid
    cases hvalid
  have hhas : hasFlag s.rstat = true := by
    by_contra hclear
    exact hrstat 0x00#8 rfl (hinv.empty_clear (Bool.eq_false_of_not_eq_true hclear))
  have hill : illFlag s.rstat = false := by
    by_contra hset
    obtain ⟨hlatch, -⟩ := hinv.illegal_latch hhas (Bool.eq_true_of_not_eq_false hset)
    exact hrstat 0xC0#8 rfl hlatch
  obtain ⟨hlegal, hcrc⟩ := hinv.legal_crc hhas hill
  have hop : s.rop = 0x3#4 ∨ s.rop = 0x4#4 := by
    rcases opcode_cases s.rop with hmakes | hchecks | hreserved
    · obtain ⟨hlatch, -⟩ := hinv.made_frame hhas hmakes
      exact absurd hlatch (hrstat 0x80#8 rfl)
    · exact hchecks
    · rw [hlegal] at hreserved
      cases hreserved
  obtain ⟨hsts, hcrcOk, hall⟩ := hinv.checked_frame hhas hop
  rw [hvalid, hsts, hcrcOk] at hall
  have hpassed : (statusBit s.rframe = true ∧ addrOkFlag s.rstat = true) ∧ crcField s.rframe = s.rcrc := by
    simpa using hall
  obtain ⟨⟨hstatus, -⟩, hfield⟩ := hpassed
  exact ⟨hhas, hill, hop, hstatus, hfield.trans hcrc⟩

/-- Settles O39: with nothing pending the host waits; otherwise the position moves past the transaction performed. -/
theorem stepPerformsTheNextTransaction : Obligations.StepPerformsTheNextTransaction := by
  intro s
  refine ⟨step_of_nil s, fun t ts hp => ?_⟩
  rw [step_of_cons s t ts hp, advance_of_pending_cons hp]

/-- Settles O40: an ISSUE follows the decoder's answer. -/
theorem stepRunsTheDecodedCommand : Obligations.StepRunsTheDecodedCommand := by
  intro s cmd ts hp
  have hstep : step s = performIssue cmd { s with pending := ts, position := s.position + 1 } := by
    rw [step_of_cons s _ ts hp, advance_of_pending_cons hp, perform]
  refine ⟨fun i hd => ?command, fun op hd => ?illegal⟩
  case command => rw [hstep, performIssue_of_ok hd]
  case illegal =>
    rw [hstep, performIssue_of_illegal hd]
    rfl

/-- Settles O46: power-on has RSTAT = 0. -/
theorem latchInvariantHoldsAtReset : Obligations.LatchInvariantHoldsAtReset := latchInv_of_rstat_zero rfl

end Sys2Proof.Proofs

/-! SUPPORT and the statements about encodings and the assembler. A mask cuts a command word field by field
(`and_mask_eq_commandWord`), so a word masked to the bits its command uses is put together from the operands that the
decoder takes; and the decoder reads nothing outside that mask (`decode_of_and_usedBits_eq`). The assembler looks at the
operands' bounds first and encodes a line only when all of them hold. -/

namespace Sys2Proof.Proofs

open Sys2Proof Sys2Proof.Machine Sys2Proof.Spec

/-! ### A word and its fields (30_encoding.md R56) -/

theorem append_fields (cmd : Command) : opField cmd ++ rsvField cmd ++ eaField cmd ++ plField cmd = cmd := by
  have hhigh : opField cmd ++ rsvField cmd = cmd.extractLsb' 39 9 :=
    BitVec.extractLsb'_append_extractLsb'_eq_extractLsb' rfl
  have hupper : opField cmd ++ rsvField cmd ++ eaField cmd = cmd.extractLsb' 32 16 := by
    rw [hhigh]
    exact BitVec.extractLsb'_append_extractLsb'_eq_extractLsb' rfl
  rw [hupper]
  exact (BitVec.extractLsb'_append_extractLsb'_eq_extractLsb' rfl).trans BitVec.extractLsb'_eq_self

/-- A mask without RSV leaves OP, and what it lets through of EA and PL. -/
theorem and_mask_eq_commandWord (cmd : Command) (ea : Address) (pl : Frame) :
    cmd &&& (BitVec.allOnes 4 ++ 0#5 ++ ea ++ pl) =
      commandWord (opField cmd) (eaField cmd &&& ea) (plField cmd &&& pl) := by
  conv_lhs => rw [← append_fields cmd]
  rw [BitVec.and_append, BitVec.and_append, BitVec.and_append, BitVec.and_allOnes, BitVec.and_zero, commandWord]

/-- A frame's bytes 0 to 2 and its CRC byte, put together again (20_memory.md R43). -/
theorem append_messageOf_crcField (f : Frame) : messageOf f ++ crcField f = f :=
  (BitVec.extractLsb'_append_extractLsb'_eq_extractLsb' rfl).trans BitVec.extractLsb'_eq_self

/-- A frame's fields, put together again (20_memory.md R43). -/
theorem append_frameFields (f : Frame) : f.extractLsb' 31 1 ++ addressField f ++ dataField f ++ crcField f = f := by
  have hbyte : f.extractLsb' 31 1 ++ addressField f = f.extractLsb' 24 8 :=
    BitVec.extractLsb'_append_extractLsb'_eq_extractLsb' rfl
  have hmessage : f.extractLsb' 31 1 ++ addressField f ++ dataField f = messageOf f := by
    rw [hbyte]
    exact BitVec.extractLsb'_append_extractLsb'_eq_extractLsb' rfl
  rw [hmessage, append_messageOf_crcField]

/-- CRC8 takes PL[31:8]. -/
theorem and_messageMask (f : Frame) : f &&& (BitVec.allOnes 24 ++ 0#8) = messageOf f ++ 0#8 := by
  conv_lhs => rw [← append_messageOf_crcField f]
  rw [BitVec.and_append, BitVec.and_allOnes, BitVec.and_zero]

/-- BUILD takes PL[30:24] and PL[23:8]. -/
theorem and_writeMask (f : Frame) :
    f &&& (0#1 ++ BitVec.allOnes 7 ++ BitVec.allOnes 16 ++ 0#8) = 0#1 ++ addressField f ++ dataField f ++ 0#8 := by
  conv_lhs => rw [← append_frameFields f]
  rw [BitVec.and_append, BitVec.and_append, BitVec.and_append, BitVec.and_zero, BitVec.and_allOnes, BitVec.and_allOnes,
    BitVec.and_zero]

theorem dataField_plField (cmd : Command) : dataField (plField cmd) = cmd.extractLsb' 8 16 :=
  plField_extractLsb' cmd (by decide)

/-! ### The bits a command uses, field by field (R63) -/

theorem usedBits_crc8_eq : 0xF000FFFFFF00#48 = BitVec.allOnes 4 ++ 0#5 ++ 0#7 ++ (BitVec.allOnes 24 ++ 0#8) := by decide

theorem usedBits_build_eq :
    0xF0007FFFFF00#48 =
      BitVec.allOnes 4 ++ 0#5 ++ 0#7 ++ (0#1 ++ BitVec.allOnes 7 ++ BitVec.allOnes 16 ++ 0#8) := by decide

theorem usedBits_checking_eq :
    0xF07FFFFFFFFF#48 = BitVec.allOnes 4 ++ 0#5 ++ BitVec.allOnes 7 ++ BitVec.allOnes 32 := by decide

section DecodedCommand

variable {cmd : Command} {i : Instr}

/-- The command of a word that has one, by its opcode, with its operands as slices of the word. -/
theorem decode_ok_cases (h : decode cmd = .ok i) :
    (opField cmd = 0x1#4 ∧ i = .crc8 (cmd.extractLsb' 8 24)) ∨
    (opField cmd = 0x2#4 ∧ i = .build (cmd.extractLsb' 24 7) (cmd.extractLsb' 8 16)) ∨
    (opField cmd = 0x3#4 ∧ i = .validate (plField cmd) (eaField cmd)) ∨
    (opField cmd = 0x4#4 ∧ i = .extract (cmd.extractLsb' 16 16) (cmd.extractLsb' 0 16) (eaField cmd)) := by
  rcases opcode_cases (opField cmd) with (hop | hop) | (hop | hop) | hop
  · rw [decode_of_crc8 hop] at h
    exact .inl ⟨hop, (Except.ok.inj h).symm⟩
  · rw [decode_of_build hop] at h
    exact .inr (.inl ⟨hop, (Except.ok.inj h).symm⟩)
  · rw [decode_of_validate hop] at h
    exact .inr (.inr (.inl ⟨hop, (Except.ok.inj h).symm⟩))
  · rw [decode_of_extract hop] at h
    exact .inr (.inr (.inr ⟨hop, (Except.ok.inj h).symm⟩))
  · rw [decode_of_reserved hop] at h
    cases h

/-- The encoder writes the operands that the decoder takes, at the bits it takes them from. -/
theorem encode_eq_and_usedBits (h : decode cmd = .ok i) : encode i = cmd &&& usedBits i := by
  rcases decode_ok_cases h with ⟨hop, rfl⟩ | ⟨hop, rfl⟩ | ⟨hop, rfl⟩ | ⟨hop, rfl⟩
  · rw [usedBits, usedBits_crc8_eq, and_mask_eq_commandWord, hop, BitVec.and_zero, and_messageMask,
      messageOf_plField, encode]
  · rw [usedBits, usedBits_build_eq, and_mask_eq_commandWord, hop, BitVec.and_zero, and_writeMask,
      addressField_plField, dataField_plField, encode]
  · rw [usedBits, usedBits_checking_eq, and_mask_eq_commandWord, hop, BitVec.and_allOnes, BitVec.and_allOnes, encode]
  · have hwords : cmd.extractLsb' 16 16 ++ cmd.extractLsb' 0 16 = plField cmd :=
      BitVec.extractLsb'_append_extractLsb'_eq_extractLsb' rfl
    rw [usedBits, usedBits_checking_eq, and_mask_eq_commandWord, hop, BitVec.and_allOnes, BitVec.and_allOnes, encode,
      hwords]

end DecodedCommand

/-! ### The decoder reads used bits alone -/

section UsedBits

variable {cmd cmd' mask : Command} {i : Instr}

/-- Words that agree under a mask agree in every slice that the mask covers. -/
theorem extractLsb'_eq_of_and_eq (h : cmd &&& mask = cmd' &&& mask) {start len : Nat}
    (hmask : mask.extractLsb' start len = BitVec.allOnes len) :
    cmd.extractLsb' start len = cmd'.extractLsb' start len := by
  have hslice := congrArg (BitVec.extractLsb' start len) h
  rwa [BitVec.extractLsb'_and, BitVec.extractLsb'_and, hmask, BitVec.and_allOnes, BitVec.and_allOnes] at hslice

/-- A word that agrees with a command's word in the bits the command uses decodes to that command. -/
theorem decode_of_and_usedBits_eq (hd : decode cmd = .ok i) (h : cmd' &&& usedBits i = cmd &&& usedBits i) :
    decode cmd' = .ok i := by
  rcases decode_ok_cases hd with ⟨hop, rfl⟩ | ⟨hop, rfl⟩ | ⟨hop, rfl⟩ | ⟨hop, rfl⟩ <;> rw [usedBits] at h
  · have hop' : opField cmd' = 0x1#4 := (extractLsb'_eq_of_and_eq h (by decide)).trans hop
    rw [decode_of_crc8 hop', extractLsb'_eq_of_and_eq h (by decide)]
  · have hop' : opField cmd' = 0x2#4 := (extractLsb'_eq_of_and_eq h (by decide)).trans hop
    rw [decode_of_build hop', extractLsb'_eq_of_and_eq h (by decide), extractLsb'_eq_of_and_eq h (by decide)]
  · have hop' : opField cmd' = 0x3#4 := (extractLsb'_eq_of_and_eq h (by decide)).trans hop
    have hea : eaField cmd' = eaField cmd := extractLsb'_eq_of_and_eq h (by decide)
    have hpl : plField cmd' = plField cmd := extractLsb'_eq_of_and_eq h (by decide)
    rw [decode_of_validate hop', hea, hpl]
  · have hop' : opField cmd' = 0x4#4 := (extractLsb'_eq_of_and_eq h (by decide)).trans hop
    have hea : eaField cmd' = eaField cmd := extractLsb'_eq_of_and_eq h (by decide)
    rw [decode_of_extract hop', hea, extractLsb'_eq_of_and_eq h (by decide), extractLsb'_eq_of_and_eq h (by decide)]

/-- Noise outside a mask does not show under it. -/
theorem xor_noise_and_mask (cmd noise mask : Command) : (cmd ^^^ (noise &&& ~~~mask)) &&& mask = cmd &&& mask := by
  ext k hk
  simp only [BitVec.getElem_and, BitVec.getElem_xor, BitVec.getElem_not]
  cases mask[k] <;> simp

end UsedBits

/-! ### The assembler (R66) -/

theorem encode_crc8 (m : Message) : encode (.crc8 m) = 0x1#4 ++ 0#5 ++ 0#7 ++ m ++ 0x00#8 := by
  symm
  exact BitVec.append_assoc

theorem encode_build (a : Address) (d : Half) :
    encode (.build a d) = 0x2#4 ++ 0#5 ++ 0#7 ++ 0#1 ++ a ++ d ++ 0x00#8 := by
  have haddr : 0x2#4 ++ 0#5 ++ 0#7 ++ 0#1 ++ a = 0x2#4 ++ 0#5 ++ 0#7 ++ (0#1 ++ a) := BitVec.append_assoc
  have hdata : 0x2#4 ++ 0#5 ++ 0#7 ++ (0#1 ++ a) ++ d = 0x2#4 ++ 0#5 ++ 0#7 ++ (0#1 ++ a ++ d) := BitVec.append_assoc
  have hlow : 0x2#4 ++ 0#5 ++ 0#7 ++ (0#1 ++ a ++ d) ++ 0x00#8 = encode (.build a d) := BitVec.append_assoc
  exact ((congrArg (fun x : BitVec 24 => x ++ d ++ 0x00#8) haddr).trans
    ((congrArg (fun x : BitVec 40 => x ++ 0x00#8) hdata).trans hlow)).symm

theorem encode_extract (msbw lsbw : Half) (ea : Address) :
    encode (.extract msbw lsbw ea) = 0x4#4 ++ 0#5 ++ ea ++ msbw ++ lsbw := by
  symm
  exact BitVec.append_assoc

/-- An operand within its bound is passed over. -/
theorem firstUnfit_of_lt {o : Operand} {w n : Nat} {rest : List (Operand × Bool)} (h : n < 2 ^ w) :
    firstUnfit ((o, fitsWidth w n) :: rest) = firstUnfit rest := by
  simp [firstUnfit, fitsWidth, h]

/-- An operand past its bound is the one named. -/
theorem firstUnfit_of_le {o : Operand} {w n : Nat} {rest : List (Operand × Bool)} (h : 2 ^ w ≤ n) :
    firstUnfit ((o, fitsWidth w n) :: rest) = some o := by
  simp [firstUnfit, fitsWidth, h]

/-- The transaction that R66's table gives a line whose operands fit, its command word field by field. -/
def tableTransaction : SourceLine → Transaction
  | .crc8 m => .issue (0x1#4 ++ 0#5 ++ 0#7 ++ BitVec.ofNat 24 m ++ 0x00#8)
  | .build a d => .issue (0x2#4 ++ 0#5 ++ 0#7 ++ 0#1 ++ BitVec.ofNat 7 a ++ BitVec.ofNat 16 d ++ 0x00#8)
  | .validate f ea => .issue (0x3#4 ++ 0#5 ++ BitVec.ofNat 7 ea ++ BitVec.ofNat 32 f)
  | .extract h l ea => .issue (0x4#4 ++ 0#5 ++ BitVec.ofNat 7 ea ++ BitVec.ofNat 16 h ++ BitVec.ofNat 16 l)
  | .cmd w => .issue (BitVec.ofNat 48 w)
  | .read n => .read n
  | .reset => .reset

section Assemble

variable {l : SourceLine}

theorem assemble_of_unfit {o : Operand} (h : l.unfit = some o) : assemble l = .error o := by
  unfold assemble
  rw [h]

theorem assemble_of_fits (h : l.unfit = none) : assemble l = .ok (tableTransaction l) := by
  unfold assemble
  rw [h]
  cases l with
  | crc8 m => simp only [encode_crc8, tableTransaction]
  | build a d => simp only [encode_build, tableTransaction]
  | validate f ea => rfl
  | extract msbw lsbw ea => simp only [encode_extract, tableTransaction]
  | cmd w => rfl
  | read n => rfl
  | reset => rfl

end Assemble

/-! ### Lines of text -/

/-- A comment is cut off before the line is read. -/
theorem assembleLine_comment {body : List Char} (h : ';' ∉ body) (comment : List Char) :
    assembleLine (body ++ ';' :: comment) = assembleLine body := by
  have hbody : ∀ c ∈ body, decide (c ≠ ';') = true := fun c hc => decide_eq_true fun heq => h (heq ▸ hc)
  have hcut : (body ++ ';' :: comment).takeWhile (· ≠ ';') = body.takeWhile (· ≠ ';') := by
    rw [List.takeWhile_append_of_pos hbody, List.takeWhile_eq_self_iff.2 hbody]
    simp
  rw [assembleLine, parseLine, hcut, assembleLine, parseLine]

theorem assembleLines_of_error {text : List Char} {e : LineError} (h : assembleLine text = .error e) (n : Nat)
    (rest : List (List Char)) : assembleLines n (text :: rest) = .error (n, e) := by
  rw [assembleLines, h]

/-- A line that assembles leaves the refusal of a later one as it is. -/
theorem assembleLines_of_ok {text : List Char} {t : Option Transaction} (h : assembleLine text = .ok t) {n : Nat}
    {rest : List (List Char)} {e : Nat × LineError} (hrest : assembleLines (n + 1) rest = .error e) :
    assembleLines n (text :: rest) = .error e := by
  rw [assembleLines, h]
  simp only [hrest]

/-! ### The statements -/

/-- Settles O13: noise in unused bits does not show under the mask, under which alone the decoder looks. -/
theorem decodeOfEncodeIsTheCommand : Obligations.DecodeOfEncodeIsTheCommand := by
  intro i
  refine ⟨decode_encode i, fun noise => ?_⟩
  exact decode_of_and_usedBits_eq (decode_encode i) (xor_noise_and_mask (encode i) noise (usedBits i))

/-- Settles O14: field by field. -/
theorem decodedWordAgreesWithItsEncoding : Obligations.DecodedWordAgreesWithItsEncoding :=
  fun _ _ => encode_eq_and_usedBits

/-- Settles O16: the operands are passed over from the left up to the first that does not fit. -/
theorem assemblerEncodesLinesThatFitAndRefusesTheRest : Obligations.AssemblerEncodesLinesThatFitAndRefusesTheRest := by
  refine ⟨fun m => ?crc8, fun a d => ?build, fun f ea => ?validate, fun h l ea => ?extract, fun w => ?cmd,
    fun n => ?read, rfl⟩
  case crc8 =>
    exact ⟨fun hm => assemble_of_fits (firstUnfit_of_lt hm), fun hm => assemble_of_unfit (firstUnfit_of_le hm)⟩
  case build =>
    exact ⟨fun ha hd => assemble_of_fits ((firstUnfit_of_lt ha).trans (firstUnfit_of_lt hd)),
      fun ha => assemble_of_unfit (firstUnfit_of_le ha),
      fun ha hd => assemble_of_unfit ((firstUnfit_of_lt ha).trans (firstUnfit_of_le hd))⟩
  case validate =>
    exact ⟨fun hf hea => assemble_of_fits ((firstUnfit_of_lt hf).trans (firstUnfit_of_lt hea)),
      fun hf => assemble_of_unfit (firstUnfit_of_le hf),
      fun hf hea => assemble_of_unfit ((firstUnfit_of_lt hf).trans (firstUnfit_of_le hea))⟩
  case extract =>
    exact ⟨fun hh hl hea =>
        assemble_of_fits ((firstUnfit_of_lt hh).trans ((firstUnfit_of_lt hl).trans (firstUnfit_of_lt hea))),
      fun hh => assemble_of_unfit (firstUnfit_of_le hh),
      fun hh hl => assemble_of_unfit ((firstUnfit_of_lt hh).trans (firstUnfit_of_le hl)),
      fun hh hl hea =>
        assemble_of_unfit ((firstUnfit_of_lt hh).trans ((firstUnfit_of_lt hl).trans (firstUnfit_of_le hea)))⟩
  case cmd =>
    exact ⟨fun hw => assemble_of_fits (firstUnfit_of_lt hw), fun hw => assemble_of_unfit (firstUnfit_of_le hw)⟩
  case read =>
    exact ⟨fun hn => assemble_of_fits (firstUnfit_of_lt (Nat.lt_succ_of_le hn)),
      fun hn => assemble_of_unfit (firstUnfit_of_le hn)⟩

/-- Settles O52: what is after a `;` is never looked at; and by induction over the lines before the refused one. -/
theorem assemblerTextCommentsAndRefusalByLineNumber : Obligations.AssemblerTextCommentsAndRefusalByLineNumber := by
  refine ⟨fun body comment h => assembleLine_comment h comment, ?refusal⟩
  case refusal =>
    intro n good rest bad e hgood hbad
    induction good generalizing n with
    | nil => exact assembleLines_of_error hbad n rest
    | cons l ls ih =>
      obtain ⟨t, ht⟩ := hgood l List.mem_cons_self
      have hrest := ih (n + 1) fun l' hl' => hgood l' (List.mem_cons_of_mem l hl')
      have hnumber : n + (l :: ls).length = n + 1 + ls.length := by
        rw [List.length_cons]
        omega
      rw [hnumber]
      exact assembleLines_of_ok ht hrest

end Sys2Proof.Proofs

/-! SUPPORT and the statements about frames as the host uses them. A frame is its bytes, its words or its fields; the host's
outcome of a read is decided by the three checks of the frame that its EXTRACT puts together (`readOutcome_rstatChecked`),
and the response frame of an address and data passes all three. -/

namespace Sys2Proof.Proofs

open Sys2Proof Sys2Proof.Machine

/-! ### A frame's parts (20_memory.md R42 to R44) -/

section Parts

theorem append_bytes (f : Frame) :
    f.extractLsb' 24 8 ++ f.extractLsb' 16 8 ++ f.extractLsb' 8 8 ++ f.extractLsb' 0 8 = f := by
  have hhigh : f.extractLsb' 24 8 ++ f.extractLsb' 16 8 = f.extractLsb' 16 16 :=
    BitVec.extractLsb'_append_extractLsb'_eq_extractLsb' rfl
  have hmessage : f.extractLsb' 24 8 ++ f.extractLsb' 16 8 ++ f.extractLsb' 8 8 = messageOf f := by
    rw [hhigh]
    exact BitVec.extractLsb'_append_extractLsb'_eq_extractLsb' rfl
  rw [hmessage]
  exact append_messageOf_crcField f

variable (h l d : Half) (b : BitVec 1) (a : Address) (c : Byte)

theorem statusBit_append_words : statusBit (h ++ l) = h.getLsbD 15 := by
  unfold statusBit
  rw [BitVec.getLsbD_append]
  rfl

/-- The data stand across the two words. -/
theorem dataField_append_words : dataField (h ++ l) = h.extractLsb' 0 8 ++ l.extractLsb' 8 8 := by
  have hhigh : (h ++ l : Frame).extractLsb' 16 8 = h.extractLsb' 0 8 := BitVec.extractLsb'_append_eq_of_le (by decide)
  have hlow : (h ++ l : Frame).extractLsb' 8 8 = l.extractLsb' 8 8 := BitVec.extractLsb'_append_eq_of_add_le (by decide)
  rw [← hhigh, ← hlow]
  symm
  exact BitVec.extractLsb'_append_extractLsb'_eq_extractLsb' rfl

theorem dataField_append : dataField (b ++ a ++ d ++ c) = d := by
  unfold dataField
  rw [BitVec.extractLsb'_append_eq_of_le (by decide)]
  exact BitVec.extractLsb'_append_eq_right

/-- The two words of a frame that is put together from its fields. -/
theorem append_fields_eq_words :
    b ++ a ++ d ++ c = (b ++ a ++ d.extractLsb' 8 8) ++ (d.extractLsb' 0 8 ++ c) := by
  have hd : d.extractLsb' 8 8 ++ d.extractLsb' 0 8 = d :=
    (BitVec.extractLsb'_append_extractLsb'_eq_extractLsb' rfl).trans BitVec.extractLsb'_eq_self
  have hdata : b ++ a ++ d = b ++ a ++ d.extractLsb' 8 8 ++ d.extractLsb' 0 8 :=
    (congrArg (b ++ a ++ ·) hd).symm.trans BitVec.append_assoc.symm
  exact (congrArg (fun m : Message => m ++ c) hdata).trans BitVec.append_assoc

theorem transmitWords_append : transmitWords (h ++ l) = [h, l] := by
  rw [transmitWords, msbWordOf, lsbWordOf, BitVec.extractLsb'_append_eq_left, BitVec.extractLsb'_append_eq_right]

end Parts

/-! ### The outcome of a register read (60_exceptions.md R102) -/

theorem checksPass_checkFrame_iff (f : Frame) (ea : Address) :
    checksPass (checkFrame f ea) = true ↔
      statusBit f = true ∧ addressField f = ea ∧ crcField f = crc8 (messageOf f) := by
  simp [checksPass, checkFrame, and_assoc]

/-- The three checks of a frame, from its two words. -/
theorem checksPass_append_words_iff (h l : Half) (ea : Address) :
    checksPass (checkFrame (h ++ l) ea) = true ↔
      h.getLsbD 15 = true ∧ h.extractLsb' 8 7 = ea ∧ l.extractLsb' 0 8 = crc8 (h ++ l.extractLsb' 8 8) := by
  obtain ⟨-, haddr, hmsg, hcrc⟩ := slices_append_words h l
  rw [checksPass_checkFrame_iff, statusBit_append_words, addressField, haddr, crcField, hcrc, messageOf, hmsg]

/-- After an EXTRACT the host has the frame's data exactly when the frame passes its checks. -/
theorem readOutcome_rstatChecked (h l : Half) (k : FrameChecks) (f : Frame) :
    readOutcome (.words h l) (rstatChecked k) f = if checksPass k then .ok (dataField f) else .error .crcFailure := by
  rw [readOutcome, validFlag_rstatChecked]

theorem readOutcome_eq_transportFailure_iff (r : Reception) (v : BitVec 8) (f : Frame) :
    readOutcome r v f = .error .transportFailure ↔ r = .abandoned := by
  cases r with
  | abandoned => simp [readOutcome]
  | words h l => cases hv : validFlag v <;> simp [readOutcome, hv]

theorem performIssue_encode (i : Instr) (s : State) : performIssue (encode i) s = exec i s :=
  performIssue_of_ok (decode_encode i) s

/-- The frames of R121's example: two valid frames, and the first word of the one before the second of the other. -/
theorem mixedFrames_pass :
    checksPass (checkFrame 0xAEA0209C#32 0x2E#7) = true ∧ checksPass (checkFrame 0x806A219B#32 0x00#7) = true ∧
    checksPass (checkFrame (0xAEA0#16 ++ 0x219B#16) 0x2E#7) = true := by decide +kernel

/-! ### The statements -/

/-- Settles O36: the views are slices by definition, and slices that meet are put together. -/
theorem viewsAreSlicesOfTheFrame : Obligations.ViewsAreSlicesOfTheFrame := by
  intro s
  refine ⟨rfl, rfl, rfl, rfl, rfl, rfl, rfl, rfl, rfl, rfl, ?bytes, ?words, ?fields⟩
  case bytes => exact (append_bytes s.rframe).symm
  case words => exact (frameOfWords_slices s.rframe).symm
  case fields =>
    rw [State.rsts, ← extractLsb'_statusBit]
    exact (append_frameFields s.rframe).symm

/-- Settles O48: the EXTRACT writes the checks of the frame of the two words, and VALID is their conjunction. -/
theorem readOutcomeFollowsTheFrameChecks : Obligations.ReadOutcomeFollowsTheFrameChecks := by
  refine ⟨fun h l target s => ?received, fun r target v f => ⟨readOutcome_eq_transportFailure_iff r v f, rfl⟩⟩
  case received =>
    refine ⟨_, (performIssue_encode _ s).trans (exec_extract h l target s), rfl, ?_⟩
    rw [writeChecked_rstat, writeChecked_rframe, readOutcome_rstatChecked, ← checksPass_append_words_iff,
      ← dataField_append_words]
    exact ⟨fun hpass => if_pos hpass, fun hfail => if_neg hfail⟩

/-- Settles O49: the response frame of the requested address passes every check, so the data answered decide. -/
theorem writeWithValidateOutcomes : Obligations.WriteWithValidateOutcomes := by
  intro a d d' s
  refine ⟨_, _, (performIssue_encode _ s).trans (exec_build a d s), ?sent,
    (performIssue_encode _ _).trans (exec_extract ..), fun h l => ?answered, fun k => rfl⟩
  case sent =>
    rw [append_fields_eq_words]
    exact transmitWords_append ..
  case answered =>
    rw [writeChecked_rstat, writeChecked_rframe, ← append_fields_eq_words, readOutcome_rstatChecked,
      checkFrame_append_crc8, dataField_append]
    rfl

/-- Settles O50: the three frames pass their checks, and the mixed one holds the data of the example. -/
theorem mixedFrameOfTheSpecIsAccepted : Obligations.MixedFrameOfTheSpecIsAccepted := by
  intro s
  obtain ⟨hfirst, hsecond, hmixed⟩ := mixedFrames_pass
  have hvalid : ∀ {op f ea}, checksPass (checkFrame f ea) = true →
      validFlag (writeChecked op f ea s).rstat = true := fun hpass => by
    rw [writeChecked_rstat, validFlag_rstatChecked, hpass]
  refine ⟨⟨_, exec_validate .., hvalid hfirst⟩, ⟨_, exec_validate .., hvalid hsecond⟩,
    ⟨_, exec_extract .., hvalid hmixed, rfl, ?data⟩⟩
  case data =>
    rw [State.rdata, writeChecked_rframe, dataField_append_words]
    decide

end Sys2Proof.Proofs

/-! SUPPORT and the statements about the CRC's loop and the errors it detects (40_crc.md sections 1 and 3). The CRC is
linear, so an error fails the check exactly when its own remainder is not zero, which is when the generator does not divide
it. The residue of an error is the sum of the powers of `x` at its set bits: a sum of an odd number of powers is not 0 at
`x = 1`, where the generator is; two powers below 32 are never equal; and a burst is a byte times a power of `x`, which is a
unit. The count of R78 adds up the remainders of single bits, instead of running the loop on each of the 35,960 patterns, and
looks the last of the four up. -/

namespace Sys2Proof.Proofs

open Sys2Proof Sys2Proof.Machine Sys2Proof.Spec Polynomial

/-! ### When an error fails the check (R77, R78) -/

theorem rem32_eq_zero_iff_residue (e : Frame) : rem32 e = 0x00#8 ↔ residue e = 0 := by
  rw [← residue_inj, residue_rem32, residue_zero]

/-- A correct frame's own remainder is 0, so a corrupted one has the remainder of the error. -/
theorem crcOk_xor_eq_false_iff {f : Frame} {ea : Address} (hf : (checkFrame f ea).crcOk = true) (e : Frame) :
    (checkFrame (f ^^^ e) ea).crcOk = false ↔ rem32 e ≠ 0x00#8 := by
  rw [crcOk_checkFrame_eq_rem32, beq_iff_eq] at hf
  rw [crcOk_checkFrame_eq_rem32, rem32_xor, hf, BitVec.zero_xor, beq_eq_false_iff_ne]

/-! ### The set bits of an error -/

/-- The positions of the set bits of an error pattern. -/
def setBits (e : Frame) : Finset ℕ := {k ∈ Finset.range 32 | e.getLsbD k = true}

theorem card_setBits (e : Frame) : (setBits e).card = weight e := by
  simp only [weight, List.countP_eq_length_filter, setBits, Finset.card_def, Finset.filter_val, Finset.range_val]
  simp [Multiset.range]

theorem polyOf_eq_sum_setBits (e : Frame) : polyOf e = ∑ k ∈ setBits e, (X ^ k : (ZMod 2)[X]) := by
  rw [polyOf, setBits, Finset.sum_filter]

theorem lt_of_mem_setBits {e : Frame} {k : ℕ} (h : k ∈ setBits e) : k < 32 :=
  Finset.mem_range.1 (Finset.mem_filter.1 h).1

theorem weight_ne_zero {e : Frame} (he : e ≠ 0#32) : weight e ≠ 0 := by
  rw [← card_setBits, Finset.card_ne_zero]
  by_contra hempty
  have hpoly : polyOf e = polyOf 0#32 := by
    rw [polyOf_eq_sum_setBits, Finset.not_nonempty_iff_eq_empty.1 hempty, Finset.sum_empty, polyOf_zero]
  exact he (polyOf_injective hpoly)

/-! ### Odd weight: the generator is 0 at `x = 1` -/

theorem eval_one_generator : generator.eval 1 = 0 := by
  have hfour : (1 + 1 + 1 + 1 : ZMod 2) = 0 := by decide
  simpa [generator] using hfour

theorem eval_one_polyOf (e : Frame) : (polyOf e).eval 1 = (weight e : ZMod 2) := by
  simp [polyOf_eq_sum_setBits, eval_finsetSum, card_setBits]

theorem even_weight_of_residue_eq_zero {e : Frame} (h : residue e = 0) : weight e % 2 = 0 := by
  have hdvd : generator ∣ polyOf e := AdjoinRoot.mk_eq_zero.1 h
  have heval := eval_dvd (x := (1 : ZMod 2)) hdvd
  rw [eval_one_generator, zero_dvd_iff, eval_one_polyOf, ZMod.natCast_eq_zero_iff] at heval
  exact Nat.mod_eq_zero_of_dvd heval

/-! ### Weight two: the powers of `x` below 32 are distinct -/

/-- A left shift that loses no bit multiplies by the power of `x`. -/
theorem residue_shiftLeft {w k : ℕ} (v : BitVec w) (hk : k ≤ w) (hout : v >>> (w - k) = 0#w) :
    residue (v <<< k) = residue v * residueX ^ k := by
  rw [residue, polyOf_shiftLeft v hk, hout, polyOf_zero, zero_mul, add_zero, map_mul, mk_X_pow, residue]

theorem residue_one : residue 0x00000001#32 = 1 := by
  have hone : polyOf 0x00000001#32 = 1 := by simp [polyOf]
  rw [residue, hone, map_one]

theorem residue_singleBit {k : ℕ} (hk : k < 32) : residue (1#32 <<< k) = residueX ^ k := by
  have hout : ∀ k < 32, 1#32 >>> (32 - k) = 0#32 := by decide
  rw [residue_shiftLeft _ hk.le (hout k hk), residue_one, one_mul]

/-- The remainders of the 32 errors of weight 1, bit 0 first: the powers of `x`, from bit 8 on R75's basis. -/
def singleBitRemainders : List ℕ :=
  [0x01, 0x02, 0x04, 0x08, 0x10, 0x20, 0x40, 0x80, 0x07, 0x0E, 0x1C, 0x38, 0x70, 0xE0, 0xC7, 0x89,
   0x15, 0x2A, 0x54, 0xA8, 0x57, 0xAE, 0x5B, 0xB6, 0x6B, 0xD6, 0xAB, 0x51, 0xA2, 0x43, 0x86, 0x0B]

theorem map_rem32_singleBit :
    (List.range 32).map (fun k => (rem32 (1#32 <<< k)).toNat) = singleBitRemainders := by decide +kernel

theorem nodup_singleBitRemainders : singleBitRemainders.Nodup := by decide

theorem rem32_singleBit_inj {i j : ℕ} (hi : i < 32) (hj : j < 32) (h : rem32 (1#32 <<< i) = rem32 (1#32 <<< j)) :
    i = j := by
  have hnodup := map_rem32_singleBit ▸ nodup_singleBitRemainders
  exact List.inj_on_of_nodup_map hnodup (List.mem_range.2 hi) (List.mem_range.2 hj) (congrArg BitVec.toNat h)

theorem residue_ne_zero_of_weight_two {e : Frame} (h : weight e = 2) : residue e ≠ 0 := by
  rw [← card_setBits, Finset.card_eq_two] at h
  obtain ⟨i, j, hij, hbits⟩ := h
  have hi : i < 32 := lt_of_mem_setBits (e := e) (by simp [hbits])
  have hj : j < 32 := lt_of_mem_setBits (e := e) (by simp [hbits])
  have hsum : residue e = residue (1#32 <<< i ^^^ 1#32 <<< j) := by
    rw [residue_xor, residue_singleBit hi, residue_singleBit hj, residue, polyOf_eq_sum_setBits, hbits,
      Finset.sum_pair hij, map_add, mk_X_pow, mk_X_pow]
  rw [hsum, ne_eq, ← rem32_eq_zero_iff_residue, rem32_xor, BitVec.xor_eq_zero_iff]
  exact fun hrem => hij (rem32_singleBit_inj hi hj hrem)

/-! ### Bursts: `x` is a unit modulo the generator -/

/-- The byte that one round of the bit-serial form takes to 1 is the inverse of `x`. -/
theorem isUnit_residueX : IsUnit residueX := by
  have hround : residue (crcShift 1 0x83#8) = residue 0x83#8 * residueX ^ 1 := residue_crcShift 1 0x83#8
  have hone : residue (crcShift 1 0x83#8) = 1 := by
    have hpoly : polyOf (crcShift 1 0x83#8) = 1 := by
      rw [show crcShift 1 0x83#8 = 0x01#8 by decide]
      simp [polyOf]
    rw [residue, hpoly, map_one]
  rw [pow_one, hone] at hround
  exact IsUnit.of_mul_eq_one_right _ hround.symm

theorem residue_setWidth_byte (b : Byte) : residue (b.setWidth 32) = residue b := by
  have hext : b.setWidth 32 = 0#24 ++ b := by
    rw [BitVec.append_def]
    simp
  rw [hext, residue_append, residue_zero, zero_mul, zero_add]

/-- A burst that leaves no remainder has no bit set. -/
theorem burst_eq_zero_of_residue_eq_zero {b : Byte} {k : ℕ} (hk : k ≤ 24)
    (h : residue (b.setWidth 32 <<< k) = 0) : b.setWidth 32 <<< k = 0#32 := by
  have hout : b.setWidth 32 >>> (32 - k) = 0#32 := by
    refine BitVec.eq_of_getLsbD_eq fun j _ => ?_
    rw [BitVec.getLsbD_ushiftRight, BitVec.getLsbD_setWidth, BitVec.getLsbD_of_ge b _ (by omega), Bool.and_false,
      BitVec.getLsbD_zero]
  rw [residue_shiftLeft _ (by omega) hout, residue_setWidth_byte, (isUnit_residueX.pow k).mul_left_eq_zero] at h
  have hb : b = 0x00#8 := residue_inj.1 (h.trans (residue_zero 8).symm)
  rw [hb, BitVec.setWidth_zero, BitVec.zero_shiftLeft]

/-! ### The count of R78 -/

/-- The remainder of an error pattern is the XOR of the remainders of its bits. -/
theorem toNat_rem32_errorPattern (ks : List ℕ) :
    (rem32 (errorPattern ks)).toNat = ks.foldl (fun c k => c ^^^ (rem32 (1#32 <<< k)).toNat) 0 := by
  have hzero : rem32 0#32 = 0x00#8 := (rem32_eq_zero_iff_residue _).2 (residue_zero 32)
  have hxor : ∀ (e : Frame) (k : ℕ), (rem32 e).toNat ^^^ (rem32 (1#32 <<< k)).toNat = (rem32 (e ^^^ 1#32 <<< k)).toNat := fun e k => by
    rw [rem32_xor, BitVec.toNat_xor]
  have hfold := List.foldl_hom (l := ks) (init := 0#32) (g₁ := fun e k => e ^^^ 1#32 <<< k)
    (g₂ := fun c k => c ^^^ (rem32 (1#32 <<< k)).toNat) (fun e => (rem32 e).toNat) hxor
  rw [hzero] at hfold
  exact hfold.symm

/-- The set of these numbers as the bits of one number. -/
def bitMask (bs : List ℕ) : ℕ := bs.foldr (fun b mask => 2 ^ b ||| mask) 0

theorem testBit_bitMask (bs : List ℕ) (c : ℕ) : (bitMask bs).testBit c = decide (c ∈ bs) := by
  induction bs with
  | nil => simp [bitMask]
  | cons b bs ih =>
    rw [bitMask, List.foldr_cons, ← bitMask, Nat.testBit_or, ih, Nat.testBit_two_pow]
    simp [eq_comm]

/-- The sum over every element of what `f` makes of the elements after it, with the element XORed into `c`. -/
def sumOverFirst (f : List ℕ → ℕ → ℕ) (c : ℕ) : List ℕ → ℕ
  | [] => 0
  | b :: bs => f bs (c ^^^ b) + sumOverFirst f c bs

/-- In how many ways `n + 1` of these numbers can be chosen so that they and `c` XOR to 0: the last is looked up in a mask,
as it can only be the XOR of the others and `c`. -/
def vanishingChoices : ℕ → List ℕ → ℕ → ℕ
  | 0, bs, c => bitMask bs / 2 ^ c % 2
  | n + 1, bs, c => sumOverFirst (vanishingChoices n) c bs

/-- One number of a list without duplicates: it is `c` itself. -/
theorem countP_sublistsLen_one {f : ℕ → ℕ} {l : List ℕ} (h : (l.map f).Nodup) (c : ℕ) :
    (l.sublistsLen 1).countP (fun ks => ks.foldl (fun c k => c ^^^ f k) c == 0) = vanishingChoices 0 (l.map f) c := by
  have hcount : (l.sublistsLen 1).countP (fun ks => ks.foldl (fun c k => c ^^^ f k) c == 0) = (l.map f).count c := by
    rw [List.sublistsLen_one, List.countP_map, List.countP_reverse, List.count, List.countP_map]
    refine List.countP_congr fun k _ => ?_
    simp [eq_comm (a := c)]
  rw [hcount, h.count, vanishingChoices, ← Nat.toNat_testBit, testBit_bitMask]
  by_cases hc : c ∈ l.map f <;> simp [hc]

/-- The choices of positions whose numbers XOR to `c`, counted by the first position taken. -/
theorem countP_sublistsLen_eq_vanishingChoices {f : ℕ → ℕ} (n : ℕ) {l : List ℕ} (h : (l.map f).Nodup) (c : ℕ) :
    (l.sublistsLen (n + 1)).countP (fun ks => ks.foldl (fun c k => c ^^^ f k) c == 0) =
      vanishingChoices n (l.map f) c := by
  induction n generalizing l c with
  | zero => exact countP_sublistsLen_one h c
  | succ n ihn =>
    induction l with
    | nil => rfl
    | cons k ks ihl =>
      obtain ⟨-, hks⟩ := List.nodup_cons.1 h
      rw [List.sublistsLen_succ_cons, List.countP_append, List.countP_map, ihl hks, List.map_cons, vanishingChoices,
        vanishingChoices, sumOverFirst, ← ihn hks, Nat.add_comm]
      rfl

/-- Four of the 32 errors of weight 1. -/
theorem vanishingChoices_singleBitRemainders : vanishingChoices 3 singleBitRemainders 0 = 284 := by decide +kernel

/-! ### The statements -/

/-- Settles O2: the generator's leading bit stands at the bit tested, and each later step tests a lower bit. -/
theorem crcLoopClearsTheUpperBits : Obligations.CrcLoopClearsTheUpperBits := by
  refine ⟨fun acc i => getLsbD_crcStep_self acc, fun acc i j => getLsbD_crcStep_above acc, fun acc => ?loop⟩
  case loop =>
    rw [crcLoop_eq_append_rem32]
    exact BitVec.extractLsb'_append_eq_left

/-- Settles O7: the error's own remainder decides, and none of these errors is divisible by the generator. -/
theorem smallErrorsFailTheCrcCheck : Obligations.SmallErrorsFailTheCrcCheck := by
  intro f e ea hf he
  have hfails : residue e ≠ 0 → (checkFrame (f ^^^ e) ea).crcOk = false := fun h =>
    (crcOk_xor_eq_false_iff hf e).2 (mt (rem32_eq_zero_iff_residue e).1 h)
  have hodd : weight e % 2 = 1 → residue e ≠ 0 := fun hweight hzero => by
    have heven := even_weight_of_residue_eq_zero hzero
    omega
  refine ⟨crcOk_xor_eq_false_iff hf e, fun hweight => hfails ?small, fun hweight => hfails (hodd hweight),
    fun hburst => hfails ?burst⟩
  case small =>
    have hpos := weight_ne_zero he
    rcases Nat.mod_two_eq_zero_or_one (weight e) with heven | hone
    · exact residue_ne_zero_of_weight_two (by omega)
    · exact hodd hone
  case burst =>
    obtain ⟨b, k, hk, rfl⟩ := hburst
    exact fun hzero => he (burst_eq_zero_of_residue_eq_zero hk hzero)

/-- Settles O8: the number of choices is a binomial coefficient, and the remainders are counted by linearity. -/
theorem undetectedWeightFourPatternsNumber284 : Obligations.UndetectedWeightFourPatternsNumber284 := by
  refine ⟨?patterns, ?undetected⟩
  case patterns =>
    rw [List.length_sublistsLen, List.length_range]
    rfl
  case undetected =>
    have hpred : ∀ ks : List ℕ, (rem32 (errorPattern ks) == 0x00#8) =
        (ks.foldl (fun c k => c ^^^ (rem32 (1#32 <<< k)).toNat) 0 == 0) := fun ks => by
      rw [← toNat_rem32_errorPattern, Bool.eq_iff_iff, beq_iff_eq, beq_iff_eq, BitVec.toNat_eq]
      rfl
    have hnodup := map_rem32_singleBit ▸ nodup_singleBitRemainders
    simp only [hpred]
    rw [countP_sublistsLen_eq_vanishingChoices 3 hnodup, map_rem32_singleBit, vanishingChoices_singleBitRemainders]

end Sys2Proof.Proofs
